-- ==== Sys2Proof/Word.lean ====
section
/-! DEFINITION. The word types of the engine: 32-bit bus words and bytes (spec/00_scope.md R12, R13). -/

namespace Sys2Proof

/-- A 32-bit word of the host port, the master port or a register (R13, R45, R90). -/
abbrev Word := BitVec 32

/-- An 8-bit byte. -/
abbrev Byte := BitVec 8

end Sys2Proof
end

