-- ==== Sys2Proof/Config.lean ====
section
/-! DEFINITION. The fixed parameters of spec/00_scope.md R9, the open parameters of R10, and the free values.

Every `opaque` constant here has no body: nothing can be proved about its value, so a theorem holds for every value. -/

namespace Sys2Proof

/-- The two supported sensor variants, R2 and R42: bit 0 is Variant A, bit 1 is Variant B. -/
inductive Variant where
  | a
  | b
  deriving DecidableEq, Repr

/-- The platform's answer to an acquisition request, `acq_result` 0..3 of spec/41_pin_access.md R170. -/
inductive AcqAnswer where
  | ok
  | denied
  | mapFailed
  | unavailable
  deriving DecidableEq, Repr

/-- A floating-point format: the numbers `m * radix ^ e` with `m` of so many digits and `e` in a range, and whether it tells
negative zero apart. -/
structure FloatFmt where
  /-- The radix less two. -/
  radixLessTwo : Nat
  /-- The number of significand digits less one. -/
  digitsLessOne : Nat
  /-- The least exponent of the last digit. -/
  minExp : Int
  /-- How far above the least exponent the greatest one is. -/
  expSpan : Nat
  /-- The format has signed zero (spec/43_decode.md R246). -/
  signedZero : Bool
  deriving DecidableEq, Repr, Inhabited

namespace Config

/-! ### Fixed parameters (R9; every literal exactly as stated, unaudited: log 26) -/

/-- `CEIL`, the iteration ceiling of every polling loop. -/
abbrev ceil : Nat := 32000

/-- `N_PAIRS`, pulse pairs per read. -/
abbrev nPairs : Nat := 41

/-- `N_SLOTS`, pulse counters. -/
abbrev nSlots : Nat := 82

/-- `N_BITS`, data pairs decoded. -/
abbrev nBits : Nat := 40

/-- `N_BYTES`, decoded bytes. -/
abbrev nBytes : Nat := 5

/-- `T_HS_HIGH_MS`. -/
abbrev hsHighMs : Nat := 500

/-- `T_HS_LOW_MS`. -/
abbrev hsLowMs : Nat := 20

/-- `N_BANKS`. -/
abbrev nBanks : Nat := 4

/-- `N_PINS`. -/
abbrev nPins : Nat := 32

/-- `PAGE_BYTES`. -/
abbrev pageBytes : Nat := 4096

/-- `OFF_OE`, a byte offset (spec/90_conflicts.md C1). -/
abbrev offOe : BitVec 12 := 0x134

/-- `OFF_DATAIN`. -/
abbrev offDatain : BitVec 12 := 0x138

/-- `OFF_DATAOUT`, which the engine never accesses. -/
abbrev offDataout : BitVec 12 := 0x13C

/-- `OFF_CLR`. -/
abbrev offClr : BitVec 12 := 0x190

/-- `OFF_SET`. -/
abbrev offSet : BitVec 12 := 0x194

/-! ### Open parameters (R10; log 9) -/

/-- The upper 20 bits of `BANK_BASE[b]`: R10 gives a 32-bit byte address, 4096-aligned. -/
opaque bankPage : Fin 4 → BitVec 20

/-- `BANK_BASE[b]`, aligned by construction. -/
def bankBase (b : Fin 4) : Word := bankPage b ++ 0#12

/-- The upper 22 bits of `ENG_BASE`: R10 gives a 32-bit byte address, 1024-aligned. -/
opaque engPage : BitVec 22

/-- `ENG_BASE`, aligned by construction. -/
def engBase : Word := engPage ++ 0#10

/-- `F_CLK` less one, in Hz. -/
opaque fClkLessOne : Nat

/-- `F_CLK`, a positive number of Hz; no rule's value depends on it. -/
def fClk : Nat := fClkLessOne + 1

/-- `T_POLL` less one. -/
opaque tPollLessOne : Nat

/-- `T_POLL`, the positive minimum number of cycles between two polls; no rule's value depends on it (R178). -/
def tPoll : Nat := tPollLessOne + 1

/-- `MS_TICKS` less one. -/
opaque msTicksLessOne : Nat

/-- `MS_TICKS`, the positive number of engine cycles in one millisecond of the handshake timebase. -/
def msTicks : Nat := msTicksLessOne + 1

/-- `T_COOLDOWN` in milliseconds, a host duty the engine neither enforces nor observes (R322). DESIGN CHOICE:
R10 gives a duration without a unit, here it is a whole number of milliseconds (log 25). -/
opaque tCooldownMs : Nat

/-- `FLOAT_FMT`, the format in which the host presents a reading, the host's choice (R10, R246, I5; log 25). -/
opaque floatFmt : FloatFmt

/-! ### Free values, applied to the draw counter of State -/

/-- The word the environment answers to the n-th draw for a DATAIN poll (R91, R212, I15; log 3). -/
opaque datain : Nat → Word

/-- The output-enable word found at the n-th draw for an OE read (R91, R102, I15; log 4). -/
opaque oeWord : Nat → Word

/-- The platform's answer at the n-th look, `none` while it has not answered (R170, R172, I16; log 5). -/
opaque acqAnswer : Nat → Option AcqAnswer

/-- What WAIT_CNT holds after its use (R44, I17; log 7). -/
opaque waitCnt : Nat → Nat

/-- What POLL_GAP holds after its use (R44, I17; log 7). -/
opaque pollGap : Nat → Nat

/-- What OE_HOLD holds after its use (R44, I17; log 7). -/
opaque oeHold : Nat → Word

end Config

end Sys2Proof
end

