-- ==== Sys2Proof/Syntax.lean ====
section
/-! DEFINITION. The instructions: one constructor per row of spec/opcode_table.json, three host commands
(spec/30_encoding.md R123) and twelve phase micro-operations (R125). -/

namespace Sys2Proof

/-- The rows of the opcode table, in its order. -/
inductive Instr where
  /-- NOP, OP 0x00 (R150). -/
  | nop
  /-- READ, OP 0x01: `sensor_type`, `bank_index`, `pin_index` (R151, R152). -/
  | read (type : Variant) (bank pin : Nat)
  /-- ACK, OP 0x02 (R155). -/
  | ack
  /-- IDLE, PHASE 0 (R125, R126). -/
  | idle
  /-- ACQUIRE, PHASE 1 (R183). -/
  | acquire
  /-- HS_HIGH, PHASE 2 (R184). -/
  | hsHigh
  /-- HS_LOW, PHASE 3 (R185). -/
  | hsLow
  /-- RELEASE, PHASE 4 (R186). -/
  | release
  /-- AWAIT, PHASE 5 (R201). -/
  | await
  /-- CAP_LOW, PHASE 6 (R204). -/
  | capLow
  /-- CAP_HIGH, PHASE 7 (R206). -/
  | capHigh
  /-- THRESH, PHASE 8 (R231). -/
  | thresh
  /-- DECODE, PHASE 9 (R234). -/
  | decode
  /-- CHECK, PHASE 10 (R238). -/
  | check
  /-- SCALE, PHASE 11 (R240). -/
  | scale
  deriving DecidableEq, Repr

end Sys2Proof
end

