-- ==== Sys2Proof/WellFormed.lean ====
section
/-! DEFINITION. Which instructions have an encoding: the operands of READ fit their 8-bit fields
(spec/30_encoding.md R121, R122). An out-of-range but encodable bank or pin is well-formed: ACQUIRE rejects it (R183). -/

namespace Sys2Proof

/-- A bank index fits the field BANK, bits [15:8] (R121). -/
def bankFits (bank : Nat) : Bool := bank < 256

/-- A pin index fits the field PIN, bits [23:16] (R121). -/
def pinFits (pin : Nat) : Bool := pin < 256

/-- The operands of the instruction fit their fields; only READ has operands (R122). -/
def Instr.wellFormed : Instr → Bool
  | .read _ bank pin => bankFits bank && pinFits pin
  | .nop => true
  | .ack => true
  | .idle => true
  | .acquire => true
  | .hsHigh => true
  | .hsLow => true
  | .release => true
  | .await => true
  | .capLow => true
  | .capHigh => true
  | .thresh => true
  | .decode => true
  | .check => true
  | .scale => true

end Sys2Proof
end

