-- ==== Sys2Proof/Decode.lean ====
section
/-! DEFINITION. Decoding and encoding (spec/30_encoding.md): the 32-bit command word of CMD and the 4-bit phase code.
The two forms have separate maps (R120); each instruction has exactly one form. -/

namespace Sys2Proof

/-! ### Bytes and words: little-endian on both ports (spec/20_memory.md R82, R94) -/

/-- Byte `i` of a word: bits [7:0] are byte 0. -/
def byteOfWord (w : Word) (i : Nat) : Byte := w.extractLsb' (8 * i) 8

/-- The word whose four bytes, lowest address first, are `b0 b1 b2 b3`. -/
def wordOfBytes (b0 b1 b2 b3 : Byte) : Word := b3 ++ b2 ++ b1 ++ b0

/-! ### Phase codes (R125) -/

abbrev Phase.idle : BitVec 4 := 0
abbrev Phase.acquire : BitVec 4 := 1
abbrev Phase.hsHigh : BitVec 4 := 2
abbrev Phase.hsLow : BitVec 4 := 3
abbrev Phase.release : BitVec 4 := 4
abbrev Phase.await : BitVec 4 := 5
abbrev Phase.capLow : BitVec 4 := 6
abbrev Phase.capHigh : BitVec 4 := 7
abbrev Phase.thresh : BitVec 4 := 8
abbrev Phase.decode : BitVec 4 := 9
abbrev Phase.check : BitVec 4 := 10
abbrev Phase.scale : BitVec 4 := 11

/-! ### The opcode table -/

/-- The two encoded forms of R120. -/
inductive Form where
  | command
  | phase
  deriving DecidableEq, Repr

/-- A row of the opcode table: a word of the form belongs to the row when its bits under `mask` are `pattern`. -/
structure Row where
  form : Form
  pattern : Word
  mask : Word
  deriving DecidableEq, Repr

/-- The row of spec/opcode_table.json each instruction stands for (`match` and `mask`, letter for letter). -/
def Instr.row : Instr → Row
  | .nop => ⟨.command, 0x00000000, 0x000000FF⟩
  | .read _ _ _ => ⟨.command, 0x00000001, 0x000000FF⟩
  | .ack => ⟨.command, 0x00000002, 0x000000FF⟩
  | .idle => ⟨.phase, 0x0, 0xF⟩
  | .acquire => ⟨.phase, 0x1, 0xF⟩
  | .hsHigh => ⟨.phase, 0x2, 0xF⟩
  | .hsLow => ⟨.phase, 0x3, 0xF⟩
  | .release => ⟨.phase, 0x4, 0xF⟩
  | .await => ⟨.phase, 0x5, 0xF⟩
  | .capLow => ⟨.phase, 0x6, 0xF⟩
  | .capHigh => ⟨.phase, 0x7, 0xF⟩
  | .thresh => ⟨.phase, 0x8, 0xF⟩
  | .decode => ⟨.phase, 0x9, 0xF⟩
  | .check => ⟨.phase, 0xA, 0xF⟩
  | .scale => ⟨.phase, 0xB, 0xF⟩

/-- The form an instruction is encoded in. -/
def Instr.form (i : Instr) : Form := i.row.form

/-! ### Decoding -/

/-- Why a word or a code is no instruction. -/
inductive DecodeError where
  /-- OP in 0x03..0xFF: reserved; writing it is ignored (R124, R156). -/
  | reservedOpcode (op : Byte)
  /-- Phase code 12..15: reserved, never entered, stuck (R127). -/
  | reservedPhase (code : BitVec 4)
  /-- A byte whose upper half is not zero holds no 4-bit phase code (R120). -/
  | notAPhaseCode (b : Byte)
  /-- A command is exactly four bytes and a phase code exactly one (R120, R129). -/
  | wrongLength (n : Nat)
  deriving DecidableEq, Repr

/-- OP = w[7:0] (R122). -/
def opField (w : Word) : Byte := w.extractLsb' 0 8

/-- BANK = w[15:8] (R122). -/
def bankField (w : Word) : Byte := w.extractLsb' 8 8

/-- PIN = w[23:16] (R122). -/
def pinField (w : Word) : Byte := w.extractLsb' 16 8

/-- TYPE = w[24], 0 for Variant A and 1 for Variant B (R122). -/
def typeField (w : Word) : Variant := if w.getLsbD 24 then .b else .a

/-- The command in a word written to CMD: OP selects, RSVD bits [31:25] are ignored, and so are all operand bits
of NOP and ACK (R121 to R124). -/
def decodeCommand (w : Word) : Except DecodeError Instr :=
  if opField w = 0x00 then .ok .nop
  else if opField w = 0x01 then .ok (.read (typeField w) (bankField w).toNat (pinField w).toNat)
  else if opField w = 0x02 then .ok .ack
  else .error (.reservedOpcode (opField w))

/-- The micro-operation a phase code selects (R125, R127). -/
def decodePhase (code : BitVec 4) : Except DecodeError Instr :=
  match code.toNat with
  | 0 => .ok .idle
  | 1 => .ok .acquire
  | 2 => .ok .hsHigh
  | 3 => .ok .hsLow
  | 4 => .ok .release
  | 5 => .ok .await
  | 6 => .ok .capLow
  | 7 => .ok .capHigh
  | 8 => .ok .thresh
  | 9 => .ok .decode
  | 10 => .ok .check
  | 11 => .ok .scale
  | _ => .error (.reservedPhase code)

/-- A phase code as a byte: the code in bits [3:0] and zeros above. -/
def decodePhaseByte (b : Byte) : Except DecodeError Instr :=
  if b.extractLsb' 4 4 = 0 then decodePhase (b.extractLsb' 0 4) else .error (.notAPhaseCode b)

/-- The instruction in a list of bytes, lowest address first: total, every other list is rejected by name. -/
def decode : Form → List Byte → Except DecodeError Instr
  | .command, [b0, b1, b2, b3] => decodeCommand (wordOfBytes b0 b1 b2 b3)
  | .phase, [b] => decodePhaseByte b
  | _, bs => .error (.wrongLength bs.length)

/-! ### Encoding -/

/-- The bit of TYPE (R121). -/
def typeBit : Variant → BitVec 1
  | .a => 0
  | .b => 1

/-- The word of a command with RSVD = 0 (R121, R131, R132): RSVD, TYPE, PIN, BANK, OP from the top. -/
def commandWord (type : Variant) (bank pin : Byte) (op : Byte) : Word :=
  (0#7 ++ typeBit type ++ pin ++ bank ++ op : BitVec 32)

/-- The phase code of a micro-operation, or the word of a command. -/
def encodeWord : Instr → Word
  | .nop => commandWord .a 0 0 0x00
  | .read type bank pin => commandWord type (BitVec.ofNat 8 bank) (BitVec.ofNat 8 pin) 0x01
  | .ack => commandWord .a 0 0 0x02
  | .idle => Phase.idle.setWidth 32
  | .acquire => Phase.acquire.setWidth 32
  | .hsHigh => Phase.hsHigh.setWidth 32
  | .hsLow => Phase.hsLow.setWidth 32
  | .release => Phase.release.setWidth 32
  | .await => Phase.await.setWidth 32
  | .capLow => Phase.capLow.setWidth 32
  | .capHigh => Phase.capHigh.setWidth 32
  | .thresh => Phase.thresh.setWidth 32
  | .decode => Phase.decode.setWidth 32
  | .check => Phase.check.setWidth 32
  | .scale => Phase.scale.setWidth 32

/-- The bytes of an instruction, lowest address first: four for a command, one for a phase code. -/
def encode (i : Instr) : List Byte :=
  match i.form with
  | .command => [byteOfWord (encodeWord i) 0, byteOfWord (encodeWord i) 1, byteOfWord (encodeWord i) 2,
      byteOfWord (encodeWord i) 3]
  | .phase => [byteOfWord (encodeWord i) 0]

/-! ### The opcode table's numbering -/

/-- The instruction read from `nbits` bits `w` numbered as spec/opcode_table.json numbers them. A phase code is 4 bits
(one byte when rounded up), a command word 32: at most 8 bits are a phase code, more are a command word (log 19). -/
def decodeTableWord (nbits w : Nat) : Option Instr :=
  let word : Word := BitVec.ofNat 32 w
  let form : Form := if nbits ≤ 8 then .phase else .command
  let bytes : List Byte :=
    match form with
    | .phase => [byteOfWord word 0]
    | .command => [byteOfWord word 0, byteOfWord word 1, byteOfWord word 2, byteOfWord word 3]
  match decode form bytes with
  | .ok i => some i
  | .error _ => none

end Sys2Proof
end

