-- ==== Sys2Proof/Machine/State.lean ====
section
/-! DEFINITION. The state of the engine, of the GPIO banks it drives, and of the agents around it, as plain data;
the reset state; why a step can stop. -/

namespace Sys2Proof.Machine

open Sys2Proof

/-- The document's ReadOutcome, OUTCOME codes 0 to 7 (spec/30_encoding.md R130). -/
inductive ReadOutcome where
  | none
  | success
  | invalidArgument
  | gpioUnavailable
  | deviceAccessDenied
  | mappingFailed
  | timeout
  | checksumMismatch
  deriving DecidableEq, Repr

/-- Everything the engine holds (spec/10_state.md). The bottom four fields are hidden from the host (R44). -/
structure Engine where
  /-- PULSE[0..81] (R32). -/
  pulse : Vector (BitVec 16) 82
  /-- AWAIT_COUNT (R33). -/
  awaitCount : BitVec 16
  /-- THRESHOLD (R34). -/
  threshold : Word
  /-- RAW[0..4] (R35). -/
  raw : Vector Byte 5
  /-- HUM_NUM (R36). -/
  humNum : BitVec 16
  /-- TEMP_MAG (R36). -/
  tempMag : BitVec 15
  /-- TEMP_NEG (R36). -/
  tempNeg : Bool
  /-- CRIT (R37). -/
  crit : Bool
  /-- BUSY (R38). -/
  busy : Bool
  /-- DONE (R39). -/
  done : Bool
  /-- OUTCOME (R40). -/
  outcome : ReadOutcome
  /-- FAIL_PHASE (R40). -/
  failPhase : BitVec 4
  /-- PHASE (R41). -/
  phase : BitVec 4
  /-- PAIR, values 0..40 (R41; log 15). -/
  pair : Fin 41
  /-- ARG_BANK (R42). -/
  argBank : BitVec 8
  /-- ARG_PIN (R42). -/
  argPin : BitVec 8
  /-- ARG_TYPE (R42). -/
  argType : Variant
  /-- MAPPED[0..3] (R43). -/
  mapped : Vector Bool 4
  /-- WAIT_CNT (R44 (a)). DESIGN CHOICE: its width is the implementer's, here it is unbounded (log 29). -/
  waitCnt : Nat
  /-- POLL_GAP (R44 (b)). DESIGN CHOICE: no width is given, here it is unbounded (log 29). -/
  pollGap : Nat
  /-- OE_HOLD (R44 (c)). -/
  oeHold : Word
  /-- ACQ_PENDING (R44 (d)). -/
  acqPending : Bool
  deriving DecidableEq, Repr

/-- Every element of engine state at the value of R58. -/
def Engine.reset : Engine where
  pulse := Vector.replicate 82 0
  awaitCount := 0
  threshold := 0
  raw := Vector.replicate 5 0
  humNum := 0
  tempMag := 0
  tempNeg := false
  crit := false
  busy := false
  done := false
  outcome := .none
  failPhase := 0
  phase := Phase.idle
  pair := 0
  argBank := 0
  argPin := 0
  argType := .a
  mapped := Vector.replicate 4 false
  waitCnt := 0
  pollGap := 0
  oeHold := 0
  acqPending := false

/-- What one GPIO bank holds (spec/20_memory.md R95): its output enables and its output latch. SET and CLR are
ports of the latch; DATAIN is an answer of the environment (R91). -/
structure GpioBank where
  /-- OE: bit n = 1 makes pin n an input. -/
  oe : Word
  /-- DATAOUT, the output latch. -/
  dataout : Word
  deriving DecidableEq, Repr

/-- The registers of a bank page (R95). -/
inductive BankReg where
  | oe
  | datain
  | dataout
  | clr
  | set
  deriving DecidableEq, Repr

/-- What the engine does on its master port and its acquisition handshake, and its waits (R90 to R93, R170, R180). -/
inductive PortEvent where
  /-- A 32-bit read of a register of a bank, with the word it returned. -/
  | read (bank : Fin 4) (reg : BankReg) (data : Word)
  /-- A 32-bit write of a register of a bank. -/
  | write (bank : Fin 4) (reg : BankReg) (data : Word)
  /-- `acq_req` with `acq_bank`. -/
  | acqReq (bank : Fin 4)
  /-- At least so many milliseconds with no access. -/
  | wait (ms : Nat)
  deriving DecidableEq, Repr

/-- What a host access does at its offset. -/
inductive HostOp where
  | read
  | write (data : Word)
  deriving DecidableEq, Repr

/-- An access of the host inside the window of R80: byte offset, size in bytes, and direction. -/
structure HostAccess where
  off : BitVec 10
  size : Nat
  op : HostOp
  deriving DecidableEq, Repr

/-- The slave port's response to a host access (R81, R83). -/
inductive HostReply where
  | data (w : Word)
  | written
  | busError
  deriving DecidableEq, Repr

/-- A move of one of the agents (R30). -/
inductive Move where
  /-- The sequencer takes its step. -/
  | engine
  /-- The host makes one access (R84). -/
  | host (a : HostAccess)
  /-- `rst` is asserted when `performed` accesses of the step then in progress have reached the bank (R310; log 16). -/
  | reset (performed : Nat)
  /-- An access of the step the sequencer is in never completes, when `performed` of the step's accesses have reached the
  bank (R279 (b), D24, I19; log 18). -/
  | hang (performed : Nat)
  /-- Other bus masters leave the bank's registers so (R30 (5), R102; log 17). -/
  | others (bank : Fin 4) (oe dataout : Word)
  deriving DecidableEq, Repr

/-- The machine: the engine, the four banks, and the model's own record of the agents around them. -/
structure State where
  /-- The engine. -/
  eng : Engine
  /-- The GPIO banks, which reset does not touch (R312). -/
  banks : Vector GpioBank 4
  /-- MODEL's own: what the engine has done on its ports, newest first (log 10). -/
  log : List PortEvent
  /-- MODEL's own: a master-port access of the engine has not completed and never will (R279 (b); log 18). -/
  hung : Bool
  /-- MODEL's own: the slave port's last response (log 11). -/
  reply : Option HostReply
  /-- MODEL's own: the agents' moves to come; when empty the engine has the turn (log 2). -/
  inbox : List Move
  /-- MODEL's own: DATAIN words the environment has already chosen (log 3). -/
  datainIn : List Word
  /-- MODEL's own: OE words the other masters have already chosen (log 4). -/
  oeIn : List Word
  /-- MODEL's own: acquisition answers the platform has already chosen, `none` for not yet (log 5). -/
  acqIn : List (Option AcqAnswer)
  /-- MODEL's own: the counter the free values of Config are applied to (log 3). -/
  draws : Nat
  deriving DecidableEq, Repr

/-- Right after reset: the engine by R58; the banks and the model's own fields by log 1 and log 23. -/
def State.reset : State where
  eng := Engine.reset
  banks := Vector.replicate 4 ⟨0xFFFFFFFF, 0⟩
  log := []
  hung := false
  reply := none
  inbox := []
  datainIn := []
  oeIn := []
  acqIn := []
  draws := 0

/-- Why the machine stops. -/
inductive Fault where
  /-- Raised by the engine's turn when PHASE holds a reserved code 12..15: stuck, no step (R127). Safe: no transition
  enters such a code, and the model stops rather than goes on (log 13). -/
  | reservedPhase
  /-- Raised by HS_HIGH, HS_LOW, RELEASE, AWAIT, CAP_LOW and CAP_HIGH when ARG_BANK > 3 or ARG_PIN > 31: no such pin
  exists and the engine issues no such access (R90). Safe: ACQUIRE lets no such read through (R183; log 14). -/
  | noSuchPin
  /-- Raised by the engine's turn while an access it has made on the master port never completes: stuck with BUSY = 1,
  no outcome (R279 (b), D24, I19). Safe: the host and reset still have their moves, and reset ends it (log 18). -/
  | accessHung
  /-- Raised by ACQUIRE when its request is pending and the platform has not answered it: the phase has no step until the
  answer, and a platform that never answers leaves the engine stuck with BUSY = 1 and no outcome (R172, R279 (a)). Safe: the
  host, other masters and reset still have their moves, and every run that goes on gives the engine the turn only once the
  answer is there (log 5). -/
  | platformSilent
  deriving DecidableEq, Repr

/-- Why an instruction has no meaning. -/
inductive Refusal where
  /-- Raised by `exec`'s arm of an instruction without a meaning; no arm of this model does. Safe. -/
  | notModelled (mnemonic : String)
  deriving DecidableEq, Repr

end Sys2Proof.Machine
end

