-- ==== Sys2Proof/Machine/Ops.lean ====
section
/-! DEFINITION. The named operations over the state: the sequencer's position, the pulse file, the completion
procedure, the draws of free inputs, the master port (bank registers), the waits and the acquisition handshake. -/

namespace Sys2Proof.Machine

open Sys2Proof

/-! ### Sequencer position (spec/10_state.md R41) -/

/-- `goto PHASE` (spec/00_scope.md R14). -/
def State.goto (p : BitVec 4) (s : State) : State := { s with eng := { s.eng with phase := p } }

/-! ### The pulse-counter file (R32) -/

/-- The slot of `LOW[k]`, `2k`. -/
def lowSlot (k : Fin 41) : Fin 82 := ⟨2 * k.val, by omega⟩

/-- The slot of `HIGH[k]`, `2k + 1`. -/
def highSlot (k : Fin 41) : Fin 82 := ⟨2 * k.val + 1, by omega⟩

/-- `PULSE[i] <- PULSE[i] + 1` on 16 bits (log 22). -/
def State.bumpPulse (i : Fin 82) (s : State) : State :=
  { s with eng := { s.eng with pulse := s.eng.pulse.set i (s.eng.pulse[i] + 1) } }

/-- `AWAIT_COUNT <- AWAIT_COUNT + 1` on 16 bits (R33; log 22). -/
def State.bumpAwait (s : State) : State :=
  { s with eng := { s.eng with awaitCount := s.eng.awaitCount + 1 } }

/-! ### Completion (what the engine has in place of an exception) and acknowledgement -/

/-- The completion procedure `raise Outcome(code)` (spec/60_exceptions.md R275): it closes the window, records the
outcome and the raising phase (0 on SUCCESS), clears BUSY, sets DONE and returns to IDLE; all else is kept. -/
def State.complete (code : ReadOutcome) (s : State) : State :=
  { s with eng := { s.eng with
      crit := false
      outcome := code
      failPhase := if code = .success then 0 else s.eng.phase
      busy := false
      done := true
      phase := Phase.idle } }

/-- ACK's effect on an idle engine: DONE and so `irq_done` fall, all else is kept (R155). There is no return from a
completion (R278). -/
def State.acknowledge (s : State) : State := { s with eng := { s.eng with done := false } }

/-! ### Free inputs: an answer already chosen, or the free value of the draw counter -/

/-- The word the next DATAIN read returns (spec/20_memory.md R91; log 3). -/
def State.datainWord (s : State) : Word := s.datainIn.headD (Config.datain s.draws)

/-- The output-enable word the next OE read finds, whatever other masters have left there (R91, R102; log 4). -/
def State.oeWord (s : State) : Word := s.oeIn.headD (Config.oeWord s.draws)

/-- The platform's answer when the engine looks, `none` for not yet (spec/41_pin_access.md R170, R172; log 5). -/
def State.acqAnswer (s : State) : Option AcqAnswer := s.acqIn.headD (Config.acqAnswer s.draws)

/-! ### GPIO bank registers (spec/20_memory.md R95, R96) -/

/-- A write of the output-enable register. -/
def GpioBank.writeOe (v : Word) (g : GpioBank) : GpioBank := { g with oe := v }

/-- A write of SET: each 1 bit sets its latch bit, the others stay (R96). -/
def GpioBank.writeSet (v : Word) (g : GpioBank) : GpioBank := { g with dataout := g.dataout ||| v }

/-- A write of CLR: each 1 bit clears its latch bit, the others stay (R96). -/
def GpioBank.writeClr (v : Word) (g : GpioBank) : GpioBank := { g with dataout := g.dataout &&& ~~~v }

/-- The level the bank drives pin `n` at: its latch bit while the pin is an output, nothing while it is an input (R98). -/
def GpioBank.driven (g : GpioBank) (n : Nat) : Option Bool :=
  if g.oe.getLsbD n then none else some (g.dataout.getLsbD n)

/-! ### Master-port accesses (R90 to R93): each one a distinct event of the log -/

/-- `OE_HOLD <- MemRead(ea(0x134), 4)`: the bank's OE is what the other masters have left there, and is returned. -/
def State.readOe (b : Fin 4) (s : State) : State :=
  { s with
    eng := { s.eng with oeHold := s.oeWord }
    banks := s.banks.set b (s.banks[b].writeOe s.oeWord)
    log := .read b .oe s.oeWord :: s.log
    oeIn := s.oeIn.tail
    draws := s.draws + 1 }

/-- `MemWrite(ea(0x134), 4, v)`. -/
def State.writeOe (b : Fin 4) (v : Word) (s : State) : State :=
  { s with
    banks := s.banks.set b (s.banks[b].writeOe v)
    log := .write b .oe v :: s.log }

/-- `MemWrite(ea(0x194), 4, v)`. -/
def State.writeSet (b : Fin 4) (v : Word) (s : State) : State :=
  { s with
    banks := s.banks.set b (s.banks[b].writeSet v)
    log := .write b .set v :: s.log }

/-- `MemWrite(ea(0x190), 4, v)`. -/
def State.writeClr (b : Fin 4) (v : Word) (s : State) : State :=
  { s with
    banks := s.banks.set b (s.banks[b].writeClr v)
    log := .write b .clr v :: s.log }

/-- `MemRead(ea(0x138), 4)` of a poll (spec/41_pin_access.md R177): POLL_GAP is waited out before the read and is left
counting after it, at a value nothing reads (log 7); reading DATAIN does nothing to the bank (R99). -/
def State.poll (b : Fin 4) (s : State) : State :=
  { s with
    eng := { s.eng with pollGap := Config.pollGap s.draws }
    log := .read b .datain s.datainWord :: s.log
    datainIn := s.datainIn.tail
    draws := s.draws + 1 }

/-- OE_HOLD's use ends with the write half: it holds an unspecified word afterwards (R44; log 7). -/
def State.dropOeHold (s : State) : State :=
  { s with
    eng := { s.eng with oeHold := Config.oeHold s.draws }
    draws := s.draws + 1 }

/-- `Wait_ms(n)` (R180): one step of at least `n` milliseconds without an access; WAIT_CNT is unspecified after it (log 7, 8). -/
def State.waitMs (n : Nat) (s : State) : State :=
  { s with
    eng := { s.eng with waitCnt := Config.waitCnt s.draws }
    log := .wait n :: s.log
    draws := s.draws + 1 }

/-! ### The acquisition handshake (R170 to R172) -/

/-- `ACQ_PENDING <- 1; issue acq_req(b)`, once for each acquisition: while the request is pending it stands. -/
def State.requestBank (b : Fin 4) (s : State) : State :=
  if s.eng.acqPending then s
  else { s with eng := { s.eng with acqPending := true }, log := .acqReq b :: s.log }

/-- The request stands and has no answer: ACQUIRE has no step (R172; log 5). -/
def State.answerMissing (s : State) : Bool := s.eng.acqPending && s.acqAnswer.isNone

/-- The engine has looked for the platform's answer. -/
def State.tookAcqAnswer (s : State) : State := { s with acqIn := s.acqIn.tail, draws := s.draws + 1 }

/-- The platform's answer `r` to the request for bank `b`: the request ends, success is cached, failure completes the
read with the outcome of R183. -/
def State.settleAcquisition (b : Fin 4) (r : AcqAnswer) (s : State) : State :=
  let ended := { s with eng := { s.eng with acqPending := false } }
  match r with
  | .ok => { ended with eng := { ended.eng with mapped := ended.eng.mapped.set b true } }.goto Phase.hsHigh
  | .denied => ended.complete .deviceAccessDenied
  | .mapFailed => ended.complete .mappingFailed
  | .unavailable => ended.complete .gpioUnavailable

/-- `Acquire(b)` for a bank not cached: request, look for the answer, and either settle or leave the request pending (R170,
R172; log 6). -/
def State.acquireBank (b : Fin 4) (s : State) : State :=
  let asked := s.requestBank b
  match asked.acqAnswer with
  | none => asked.tookAcqAnswer
  | some r => asked.tookAcqAnswer.settleAcquisition b r

end Sys2Proof.Machine
end

