-- ==== Sys2Proof/Machine/Operands.lean ====
section
/-! DEFINITION. The operand forms: the pin handle and its mask, the physical addresses of the master port, the level of
a poll, and the pin primitives of spec/41_pin_access.md built from them. -/

namespace Sys2Proof.Machine

open Sys2Proof

/-- The pin handle (ARG_BANK, ARG_PIN) as a bank of the page map, `none` when no such pin exists (R90, R173, R183). -/
def State.pinBank (s : State) : Option (Fin 4) :=
  if h : s.eng.argBank.toNat < 4 then (if s.eng.argPin.toNat < 32 then some ⟨s.eng.argBank.toNat, h⟩ else none) else none

/-- `m = 1 << ARG_PIN` (spec/30_encoding.md R128). -/
def State.pinMask (s : State) : Word := 1#32 <<< s.eng.argPin.toNat

/-- The byte offset of a register in its page (spec/20_memory.md R95, spec/90_conflicts.md C1). -/
def BankReg.off : BankReg → BitVec 12
  | .oe => Config.offOe
  | .datain => Config.offDatain
  | .dataout => Config.offDataout
  | .clr => Config.offClr
  | .set => Config.offSet

/-- `ea = trunc_32(BANK_BASE[b] + off)` (R90). -/
def busAddress (b : Fin 4) (r : BankReg) : Word := Config.bankBase b + r.off.setWidth 32

/-- The physical address of a master-port access; requests and waits have none. -/
def PortEvent.address : PortEvent → Option Word
  | .read b r _ => some (busAddress b r)
  | .write b r _ => some (busAddress b r)
  | .acqReq _ => none
  | .wait _ => none

/-- The least number of engine cycles an event takes: `n * MS_TICKS` for a wait (R180); no other bound is stated here. -/
def PortEvent.minCycles : PortEvent → Nat
  | .wait ms => ms * Config.msTicks
  | .read _ _ _ => 0
  | .write _ _ _ => 0
  | .acqReq _ => 0

/-- `(d >> ARG_PIN) & 1` as a level, 1 = high (R177). -/
def pinLevel (d : Word) (pin : BitVec 8) : Bool := d.getLsbD pin.toNat

/-- The level the next poll of the read samples. -/
def State.nextLevel (s : State) : Bool := pinLevel s.datainWord s.eng.argPin

/-- DIR_OUT (R174): the OE word is read and written back with bit ARG_PIN clear. -/
def State.dirOut (b : Fin 4) (s : State) : State :=
  let held := s.readOe b
  (held.writeOe b (held.eng.oeHold &&& ~~~held.pinMask)).dropOeHold

/-- DIR_IN (R175): the OE word is read and written back with bit ARG_PIN set. -/
def State.dirIn (b : Fin 4) (s : State) : State :=
  let held := s.readOe b
  (held.writeOe b (held.eng.oeHold ||| held.pinMask)).dropOeHold

/-- LEVEL_HIGH (R176). -/
def State.levelHigh (b : Fin 4) (s : State) : State := s.writeSet b s.pinMask

/-- LEVEL_LOW (R176). -/
def State.levelLow (b : Fin 4) (s : State) : State := s.writeClr b s.pinMask

/-- The arguments of READ as the latches hold them (spec/10_state.md R42; log 24). -/
def argByte (n : Nat) : BitVec 8 := BitVec.ofNat 8 n

end Sys2Proof.Machine
end

