-- ==== Sys2Proof/Machine/Flags.lean ====
section
/-! DEFINITION. Flags and outputs: the outcome codes, the STATUS word, the other host registers (spec/10_state.md R45 to
R57), the byte view of the window, and the output signals. -/

namespace Sys2Proof.Machine

open Sys2Proof

/-- OUTCOME codes (spec/30_encoding.md R130). -/
def ReadOutcome.code : ReadOutcome → BitVec 3
  | .none => 0
  | .success => 1
  | .invalidArgument => 2
  | .gpioUnavailable => 3
  | .deviceAccessDenied => 4
  | .mappingFailed => 5
  | .timeout => 6
  | .checksumMismatch => 7

/-- STATUS (R47), from bit 31 down: reserved, PAIR, FAIL_PHASE, reserved, OUTCOME, PHASE, reserved, CRIT, DONE, BUSY. -/
def Engine.statusWord (e : Engine) : Word :=
  (0#10 ++ BitVec.ofNat 6 e.pair.val ++ e.failPhase ++ 0#1 ++ e.outcome.code ++ e.phase ++ 0#1 ++
    BitVec.ofBool e.crit ++ BitVec.ofBool e.done ++ BitVec.ofBool e.busy : BitVec 32)

/-- HUMIDITY (R48). -/
def Engine.humidityWord (e : Engine) : Word := e.humNum.setWidth 32

/-- TEMPERATURE (R49): TEMP_NEG in bit 15, TEMP_MAG in [14:0]. -/
def Engine.temperatureWord (e : Engine) : Word := (0#16 ++ BitVec.ofBool e.tempNeg ++ e.tempMag : BitVec 32)

/-- RAW_LO (R50). -/
def Engine.rawLoWord (e : Engine) : Word := (e.raw[3] ++ e.raw[2] ++ e.raw[1] ++ e.raw[0] : BitVec 32)

/-- RAW_HI (R50). -/
def Engine.rawHiWord (e : Engine) : Word := e.raw[4].setWidth 32

/-- AWAIT_COUNT (R52). -/
def Engine.awaitCountWord (e : Engine) : Word := e.awaitCount.setWidth 32

/-- BANKS (R53): bit b is MAPPED[b]. -/
def Engine.banksWord (e : Engine) : Word :=
  (0#28 ++ BitVec.ofBool e.mapped[3] ++ BitVec.ofBool e.mapped[2] ++ BitVec.ofBool e.mapped[1] ++
    BitVec.ofBool e.mapped[0] : BitVec 32)

/-- ARGS (R54). -/
def Engine.argsWord (e : Engine) : Word := (0#15 ++ typeBit e.argType ++ e.argPin ++ e.argBank : BitVec 32)

/-- PULSE_i (R55). -/
def Engine.pulseWord (e : Engine) (i : Fin 82) : Word := e.pulse[i].setWidth 32

/-- A 32-bit read of the host window at byte offset `off` (R45, R46, R56): CMD and every unnamed offset read 0. -/
def Engine.readReg (e : Engine) (off : BitVec 10) : Word :=
  match off.toNat with
  | 0x004 => e.statusWord
  | 0x008 => e.humidityWord
  | 0x00C => e.temperatureWord
  | 0x010 => e.rawLoWord
  | 0x014 => e.rawHiWord
  | 0x018 => e.threshold
  | 0x01C => e.awaitCountWord
  | 0x020 => e.banksWord
  | 0x024 => e.argsWord
  | n => if h : 0x100 ≤ n ∧ n ≤ 0x244 ∧ n % 4 = 0 then e.pulseWord ⟨(n - 0x100) / 4, by omega⟩ else 0

/-- The byte a byte-addressed host names at offset `off`: little-endian (spec/20_memory.md R82). -/
def Engine.windowByte (e : Engine) (off : BitVec 10) : Byte :=
  byteOfWord (e.readReg (off &&& 0x3FC)) (off.toNat % 4)

/-- The output `irq_done` (spec/60_exceptions.md R281). -/
def State.irqDone (s : State) : Bool := s.eng.done

/-- The output `crit_window` (R283). -/
def State.critWindow (s : State) : Bool := s.eng.crit

/-- The output `acq_req` (spec/41_pin_access.md R170). -/
def State.acqReq (s : State) : Bool := s.eng.acqPending

/-- The output `acq_bank`, two bits: the requested bank while `acq_req` is 1 (R170). DESIGN CHOICE: while `acq_req` is 0 the
spec gives it no value, and the model shows the low two bits of ARG_BANK (log 30). -/
def State.acqBank (s : State) : BitVec 2 := s.eng.argBank.extractLsb' 0 2

end Sys2Proof.Machine
end

