-- ==== Sys2Proof/Machine/Commands.lean ====
section
/-! DEFINITION. The host commands NOP, READ and ACK (spec/40_commands.md). -/

namespace Sys2Proof.Machine

open Sys2Proof

/-- READ acceptance (R151): the arguments are latched, every counter, result and flag of the last read is cleared, the
engine is busy in ACQUIRE. The acquisition cache and the hidden state are not written. -/
def State.acceptRead (type : Variant) (bank pin : BitVec 8) (s : State) : State :=
  { s with eng := { s.eng with
      argBank := bank
      argPin := pin
      argType := type
      pulse := Vector.replicate 82 0
      awaitCount := 0
      threshold := 0
      raw := Vector.replicate 5 0
      humNum := 0
      tempMag := 0
      tempNeg := false
      outcome := .none
      failPhase := 0
      pair := 0
      crit := false
      done := false
      busy := true
      phase := Phase.acquire } }

/-- NOP (R150): no state change, busy or not. -/
def execNop (s : State) : Host.Outcome State Fault Refusal := .next s

/-- READ: accepted when BUSY = 0 (R151), ignored when BUSY = 1 (R152). -/
def execRead (type : Variant) (bank pin : Nat) (s : State) : Host.Outcome State Fault Refusal :=
  if s.eng.busy then .next s else .next (s.acceptRead type (argByte bank) (argByte pin))

/-- ACK (R155): clears DONE when BUSY = 0. -/
def execAck (s : State) : Host.Outcome State Fault Refusal :=
  if s.eng.busy then .next s else .next s.acknowledge

end Sys2Proof.Machine
end

