-- ==== Sys2Proof/Machine/Handshake.lean ====
section
/-! DEFINITION. The phases IDLE, ACQUIRE, HS_HIGH, HS_LOW and RELEASE (spec/30_encoding.md R125, spec/41_pin_access.md
R183 to R186). -/

namespace Sys2Proof.Machine

open Sys2Proof

/-- IDLE: no operation, waits for READ (R125, R126). -/
def execIdle (s : State) : Host.Outcome State Fault Refusal := .next s

/-- ACQUIRE (R183): the range test first and without any access, then a cached bank in one step with no request (R171),
else the handshake of R170. While its request has no answer it has no step (R172). -/
def execAcquire (s : State) : Host.Outcome State Fault Refusal :=
  match s.pinBank with
  | none => .next (s.complete .invalidArgument)
  | some b =>
    if s.eng.mapped[b] then .next (s.goto Phase.hsHigh)
    else if s.answerMissing then .fault .platformSilent
    else .next (s.acquireBank b)

/-- HS_HIGH (R184): direction first, then the level, then at least 500 ms. -/
def execHsHigh (s : State) : Host.Outcome State Fault Refusal :=
  match s.pinBank with
  | none => .fault .noSuchPin
  | some b => .next ((((s.dirOut b).levelHigh b).waitMs Config.hsHighMs).goto Phase.hsLow)

/-- HS_LOW (R185): the level, then at least 20 ms. -/
def execHsLow (s : State) : Host.Outcome State Fault Refusal :=
  match s.pinBank with
  | none => .fault .noSuchPin
  | some b => .next (((s.levelLow b).waitMs Config.hsLowMs).goto Phase.release)

/-- RELEASE (R186): the pin becomes an input. -/
def execRelease (s : State) : Host.Outcome State Fault Refusal :=
  match s.pinBank with
  | none => .fault .noSuchPin
  | some b => .next ((s.dirIn b).goto Phase.await)

end Sys2Proof.Machine
end

