-- ==== Sys2Proof/Machine/Capture.lean ====
section
/-! DEFINITION. The pulse-duration timer: AWAIT, CAP_LOW and CAP_HIGH (spec/42_capture.md). One step is one poll and the
counter update that follows it (R200). -/

namespace Sys2Proof.Machine

open Sys2Proof

/-- The window closes (R204, R206, R208). -/
def State.closeWindow (s : State) : State := { s with eng := { s.eng with crit := false } }

/-- AWAIT's exit on a low poll: pair 0, the window opens, the capture begins (R201). -/
def State.startCapture (s : State) : State :=
  { s with eng := { s.eng with pair := 0, crit := true, phase := Phase.capLow } }

/-- A poll of a capture counter's own level: count it, then compare with CEIL (R204, R206, R208). -/
def State.countPulse (i : Fin 82) (s : State) : State :=
  let counted := s.bumpPulse i
  if Config.ceil ≤ counted.eng.pulse[i].toNat then counted.closeWindow.complete .timeout else counted

/-- A high poll of AWAIT: count it, then compare with CEIL (R201). -/
def State.countAwait (s : State) : State :=
  let counted := s.bumpAwait
  if Config.ceil ≤ counted.eng.awaitCount.toNat then counted.complete .timeout else counted

/-- The low poll that ends CAP_HIGH: the next pair, or after pair 40 the end of the capture (R206). -/
def State.endPair (s : State) : State :=
  if h : s.eng.pair.val < 40 then
    { s with eng := { s.eng with pair := ⟨s.eng.pair.val + 1, by omega⟩, phase := Phase.capLow } }
  else s.closeWindow.goto Phase.thresh

/-- AWAIT (R201). -/
def execAwait (s : State) : Host.Outcome State Fault Refusal :=
  match s.pinBank with
  | none => .fault .noSuchPin
  | some b => .next (if s.nextLevel then (s.poll b).countAwait else (s.poll b).startCapture)

/-- CAP_LOW (R204). -/
def execCapLow (s : State) : Host.Outcome State Fault Refusal :=
  match s.pinBank with
  | none => .fault .noSuchPin
  | some b => .next (if s.nextLevel then (s.poll b).goto Phase.capHigh else (s.poll b).countPulse (lowSlot s.eng.pair))

/-- CAP_HIGH (R206). -/
def execCapHigh (s : State) : Host.Outcome State Fault Refusal :=
  match s.pinBank with
  | none => .fault .noSuchPin
  | some b => .next (if s.nextLevel then (s.poll b).countPulse (highSlot s.eng.pair) else (s.poll b).endPair)

end Sys2Proof.Machine
end

