-- ==== Sys2Proof/Machine/Reading.lean ====
section
/-! DEFINITION. Threshold, bit packing, checksum and scaling: THRESH, DECODE, CHECK and SCALE (spec/43_decode.md). -/

namespace Sys2Proof.Machine

open Sys2Proof

/-- `HIGH[p]` for the data pair `p = q + 1`, `q` in 0..39. -/
def Engine.dataHigh (e : Engine) (q : Fin 40) : BitVec 16 := e.pulse[highSlot ⟨q.val + 1, by omega⟩]

/-- The sum of `HIGH[1..40]` (R231), exact (log 21). -/
def Engine.highSum (e : Engine) : Nat := ((List.finRange 40).map (fun q => (e.dataHigh q).toNat)).sum

/-- The threshold: the mean by integer division (R231). -/
def Engine.meanHigh (e : Engine) : Word := BitVec.ofNat 32 (e.highSum / 40)

/-- The comparator (R233): 1 at or above the threshold. -/
def Engine.dataBit (e : Engine) (q : Fin 40) : Bool := e.threshold ≤ (e.dataHigh q).setWidth 32

/-- `r <- trunc_8((r << 1) | b)` (R234). -/
def shiftIn (r : Byte) (b : Bool) : Byte := (r <<< 1) ||| (BitVec.ofBool b).setWidth 8

/-- Byte `j` of the packer: the bits of data pairs `8j + 1 .. 8j + 8`, in order of arrival (R234; byte index by
spec/90_conflicts.md C2). -/
def Engine.packedByte (e : Engine) (j : Fin 5) : Byte :=
  (List.finRange 8).foldl (fun r m => shiftIn r (e.dataBit ⟨8 * j.val + m.val, by omega⟩)) 0

/-- The five packed bytes. -/
def Engine.packedBytes (e : Engine) : Vector Byte 5 := Vector.ofFn e.packedByte

/-- `cksum(RAW)` (R237): the sum of the first four bytes mod 256. -/
def Engine.checksum (e : Engine) : Byte := e.raw[0] + e.raw[1] + e.raw[2] + e.raw[3]

/-- The scaled fields of Variant A (R241). -/
def State.scaleA (s : State) : State :=
  { s with eng := { s.eng with
      humNum := s.eng.raw[0].setWidth 16
      tempMag := s.eng.raw[2].setWidth 15
      tempNeg := false } }

/-- The scaled fields of Variant B (R242): the mask is applied before the multiplication (spec/90_conflicts.md C3). -/
def State.scaleB (s : State) : State :=
  { s with eng := { s.eng with
      humNum := s.eng.raw[0].setWidth 16 * 256 + s.eng.raw[1].setWidth 16
      tempMag := (s.eng.raw[2] &&& 0x7F).setWidth 15 * 256 + s.eng.raw[3].setWidth 15
      tempNeg := s.eng.raw[2].getLsbD 7 } }

/-- THRESH (R231). -/
def execThresh (s : State) : Host.Outcome State Fault Refusal :=
  .next ({ s with eng := { s.eng with threshold := s.eng.meanHigh } }.goto Phase.decode)

/-- DECODE (R234). -/
def execDecode (s : State) : Host.Outcome State Fault Refusal :=
  .next ({ s with eng := { s.eng with raw := s.eng.packedBytes } }.goto Phase.check)

/-- CHECK (R238): the checksum is the only validation of the data (R239). -/
def execCheck (s : State) : Host.Outcome State Fault Refusal :=
  .next (if s.eng.raw[4] ≠ s.eng.checksum then s.complete .checksumMismatch else s.goto Phase.scale)

/-- SCALE (R240 to R242). -/
def execScale (s : State) : Host.Outcome State Fault Refusal :=
  match s.eng.argType with
  | .a => .next (s.scaleA.complete .success)
  | .b => .next (s.scaleB.complete .success)

end Sys2Proof.Machine
end

