-- ==== Sys2Proof/Machine/Dispatch.lean ====
section
/-! DEFINITION. The dispatch: one arm per instruction of the opcode table. -/

namespace Sys2Proof.Machine

open Sys2Proof

def exec (i : Instr) (s : State) : Host.Outcome State Fault Refusal :=
  match i with
  -- host commands (spec/40_commands.md)
  | .nop => Sys2Proof.Machine.execNop s
  | .read type bank pin => Sys2Proof.Machine.execRead type bank pin s
  | .ack => Sys2Proof.Machine.execAck s
  -- acquisition and handshake (spec/41_pin_access.md)
  | .idle => Sys2Proof.Machine.execIdle s
  | .acquire => Sys2Proof.Machine.execAcquire s
  | .hsHigh => Sys2Proof.Machine.execHsHigh s
  | .hsLow => Sys2Proof.Machine.execHsLow s
  | .release => Sys2Proof.Machine.execRelease s
  -- pulse-duration timer (spec/42_capture.md)
  | .await => Sys2Proof.Machine.execAwait s
  | .capLow => Sys2Proof.Machine.execCapLow s
  | .capHigh => Sys2Proof.Machine.execCapHigh s
  -- threshold, packer, checksum, scaling (spec/43_decode.md)
  | .thresh => Sys2Proof.Machine.execThresh s
  | .decode => Sys2Proof.Machine.execDecode s
  | .check => Sys2Proof.Machine.execCheck s
  | .scale => Sys2Proof.Machine.execScale s

end Sys2Proof.Machine
end

