-- ==== Sys2Proof/Machine/Fetch.lean ====
section
/-! DEFINITION. What the next step does: whose turn it is, the host port (spec/20_memory.md R80 to R85), the reset event
(spec/70_reset_and_hazards.md R310), other masters, and the engine's own turn (spec/30_encoding.md R126). -/

namespace Sys2Proof.Machine

open Sys2Proof

/-- What a step has to do. -/
inductive Work where
  /-- Execute an instruction on a state. -/
  | run (i : Instr) (s : State)
  /-- Nothing more: the move's effect is this state. -/
  | settled (s : State)
  /-- No step. -/
  | stuck (f : Fault)
  deriving DecidableEq, Repr

/-- The offset in the host window of a physical address, `none` outside it: the engine neither responds to nor sees such
an address (R80). -/
def hostOffset (addr : Word) : Option (BitVec 10) :=
  if addr.extractLsb' 10 22 = Config.engPage then some (addr.extractLsb' 0 10) else none

/-- The host port admits 32-bit accesses at offsets that are multiples of 4 (R81). -/
def HostAccess.admitted (a : HostAccess) : Bool := a.size == 4 && a.off.toNat % 4 == 0

/-- A 32-bit write of the window: CMD takes a command, and a reserved opcode is ignored (R46, R124, R156; log 12); every
other offset ignores it (R56, R57). -/
def hostWrite (off : BitVec 10) (w : Word) (s : State) : Work :=
  if off = 0 then
    match decodeCommand w with
    | .ok i => .run i s
    | .error _ => .settled s
  else .settled s

/-- One access of the host, a step of its own (R84). A read changes no engine state (R83); an access that is not
admitted gets a bus error and changes nothing (R81; log 11). -/
def hostTurn (a : HostAccess) (s : State) : Work :=
  if a.admitted then
    match a.op with
    | .read => .settled { s with reply := some (.data (s.eng.readReg a.off)) }
    | .write w => hostWrite a.off w { s with reply := some .written }
  else .settled { s with reply := some .busError }

/-- What of the interrupted step of the sequencer has reached the bank when `performed` of its master-port accesses have
been made (R184 to R186, R201, R204, R206; log 16). -/
def State.inFlight (performed : Nat) (s : State) : State :=
  match s.pinBank with
  | none => s
  | some b =>
    if performed = 0 then s
    else if s.eng.phase = Phase.hsHigh then
      (if performed = 1 then s.readOe b else if performed = 2 then s.dirOut b else (s.dirOut b).levelHigh b)
    else if s.eng.phase = Phase.hsLow then s.levelLow b
    else if s.eng.phase = Phase.release then (if performed = 1 then s.readOe b else s.dirIn b)
    else if s.eng.phase = Phase.await ∨ s.eng.phase = Phase.capLow ∨ s.eng.phase = Phase.capHigh then s.poll b
    else s

/-- `rst` (R310): every element of engine state at its reset value, the read in progress abandoned with no outcome, a
pending request withdrawn, an access that hangs given up; the banks keep what they hold (R312). DESIGN CHOICE: assertion and
release are this one move, so nothing happens while `rst` is held (log 31). -/
def State.resetEvent (performed : Nat) (s : State) : State :=
  { (if s.hung then s else s.inFlight performed) with eng := Engine.reset, hung := false }

/-- The phases whose micro-operation issues a master-port access (R179). -/
def accessPhase (p : BitVec 4) : Bool :=
  p = Phase.hsHigh || p = Phase.hsLow || p = Phase.release || p = Phase.await || p = Phase.capLow || p = Phase.capHigh

/-- An access of the step in progress never completes (R279 (b), D24): `performed` accesses of the step, perhaps the one
without an answer among them, have reached the bank, and the sequencer has no step any more. Where the phase issues no
access nothing can hang. -/
def State.hangEvent (performed : Nat) (s : State) : State :=
  if accessPhase s.eng.phase && !s.hung then
    { s.inFlight performed with hung := true }
  else s

/-- Other masters leave bank `b` with these registers (R30 (5), R102; log 17). -/
def State.othersAct (b : Fin 4) (oe dataout : Word) (s : State) : State :=
  { s with banks := s.banks.set b ⟨oe, dataout⟩ }

/-- The sequencer decodes PHASE and executes the micro-operation it names; a reserved code has no step (R126, R127), and
neither has a sequencer whose last access does not complete (R93, R279 (b)). -/
def engineTurn (s : State) : Work :=
  if s.hung then .stuck .accessHung
  else
    match decodePhase s.eng.phase with
    | .ok i => .run i s
    | .error _ => .stuck .reservedPhase

/-- The turn of the agent that moves. -/
def turn (m : Move) (s : State) : Work :=
  match m with
  | .engine => engineTurn s
  | .host a => hostTurn a s
  | .reset performed => .settled (s.resetEvent performed)
  | .hang performed => .settled (s.hangEvent performed)
  | .others b oe dataout => .settled (s.othersAct b oe dataout)

/-- The next move of the inbox, or the engine's turn when the inbox is empty (log 2). -/
def fetch (s : State) : Work :=
  match s.inbox with
  | [] => engineTurn s
  | m :: rest => turn m { s with inbox := rest }

/-- A word of the opcode table placed where the next step fetches: a phase code in PHASE with the turn the engine's, a
command word as the host's next write to CMD (log 19, 20). -/
def State.placeWord (s : State) (nbits w : Nat) : State :=
  if nbits ≤ 8 then { s with eng := { s.eng with phase := BitVec.ofNat 4 w }, inbox := .engine :: s.inbox }
  else { s with inbox := .host ⟨0, 4, .write (BitVec.ofNat 32 w)⟩ :: s.inbox }

end Sys2Proof.Machine
end

