-- ==== Sys2Proof/Safety.lean ====
section
/-! DEFINITION. What counts as a legal state (the invariants of spec/10_state.md R59, strengthened so that a step keeps
them), and the pure functions of the spec that whole reads are compared with: `capture` (spec/42_capture.md R209),
`decodeAll` (spec/43_decode.md R247) the value of the reading (R245) and its presentation by the host (R246). -/

namespace Sys2Proof.Machine

open Sys2Proof

/-! ### The circumstances statements are about -/

/-- The pin handle names bank `b` and one of its 32 pins (R90, R173). -/
abbrev State.pinValid (s : State) (b : Fin 4) : Prop := s.eng.argBank.toNat = b.val ∧ s.eng.argPin.toNat < 32

/-- Only the sequencer moves: no other agent has a move waiting and no access hangs. -/
abbrev State.quiet (s : State) : Prop := s.inbox = [] ∧ s.hung = false

/-- The turn is the sequencer's: no move waits, or the next one is the engine's (log 2). -/
abbrev State.sequencerMoves (s : State) : Prop := s.inbox = [] ∨ s.inbox.head? = some .engine

/-- ACQUIRE has a request pending for the uncached bank of a valid handle, and the platform has not answered (R172). -/
abbrev State.awaitsPlatform (s : State) : Prop :=
  ∃ b : Fin 4, s.pinValid b ∧ s.eng.mapped[b] = false ∧ s.eng.acqPending = true ∧ s.acqAnswer = none

/-- Everything outside the engine is as it was but for the sensor's, the banks' and the ports' fields named by a statement:
the moves to come, the last reply, and whether an access hangs. -/
abbrev State.sameAround (s t : State) : Prop := t.inbox = s.inbox ∧ t.reply = s.reply ∧ t.hung = s.hung

/-! ### Invariants -/

/-- The 83 counters bounded by CEIL: AWAIT_COUNT and the pulse file (R59 (g)). -/
def Engine.counters (e : Engine) : List Nat := e.awaitCount.toNat :: e.pulse.toList.map BitVec.toNat

/-- The result fields are all zero (R36). -/
abbrev Engine.resultsZero (e : Engine) : Prop := e.humNum = 0 ∧ e.tempMag = 0 ∧ e.tempNeg = false

/-- The checksum byte matches (R237). -/
abbrev Engine.checksumMatches (e : Engine) : Prop := e.raw[4] = e.raw[0] + e.raw[1] + e.raw[2] + e.raw[3]

/-- R59, clause by clause, with the facts about a read in progress that make it inductive. -/
structure Engine.Legal (e : Engine) : Prop where
  /-- R59 (a). -/
  idleIffNotBusy : e.busy = false ↔ e.phase = Phase.idle
  /-- R59 (b). -/
  busyNotDone : e.busy = true → e.done = false
  /-- R59 (c), both ways (R37). -/
  critIffCapture : e.crit = true ↔ (e.phase = Phase.capLow ∨ e.phase = Phase.capHigh)
  /-- R59 (d). -/
  doneHasOutcome : e.done = true → e.outcome ≠ .none
  /-- R59 (e). -/
  successIsClean : e.outcome = .success → e.failPhase = 0 ∧ e.checksumMatches
  /-- R59 (f). -/
  failureIsZero : e.outcome ≠ .none → e.outcome ≠ .success → e.resultsZero
  /-- R59 (g): the bound. -/
  countersBounded : ∀ c ∈ e.counters, c ≤ Config.ceil
  /-- R59 (g): exactly one counter is at CEIL after a timeout, none otherwise. -/
  ceilingIffTimeout : e.counters.count Config.ceil = if e.outcome = .timeout then 1 else 0
  /-- R127. -/
  phaseNamed : e.phase ≤ Phase.scale
  /-- OUTCOME is NONE while a read is in progress (R40, R151). -/
  busyNoOutcome : e.busy = true → e.outcome = .none
  /-- The results are zero while a read is in progress (R36, R151). -/
  busyIsZero : e.busy = true → e.resultsZero
  /-- The handle is valid once ACQUIRE has succeeded (R90, R173, R179). -/
  pinAcquired : Phase.hsHigh ≤ e.phase →
    ∃ b : Fin 4, e.argBank.toNat = b.val ∧ e.argPin.toNat < 32 ∧ e.mapped[b] = true
  /-- A request is pending only in ACQUIRE, for a valid handle whose bank is not cached (R44 (d), R170, R171, R183). -/
  pendingInAcquire : e.acqPending = true → e.phase = Phase.acquire ∧
    ∃ b : Fin 4, e.argBank.toNat = b.val ∧ e.argPin.toNat < 32 ∧ e.mapped[b] = false
  /-- SCALE runs only after the checksum has matched (R272). -/
  scaleChecked : e.phase = Phase.scale → e.checksumMatches
  /-- R34: a computed threshold is at most 31999. -/
  thresholdBounded : e.threshold ≤ 31999

/-- A legal machine: the engine is legal, and an access hangs only in a phase that issues one. -/
structure State.Legal (s : State) : Prop where
  engine : s.eng.Legal
  hungInAccess : s.hung = true → accessPhase s.eng.phase = true

/-- The first slot the capture cannot have counted in yet at position (`phase`, `pair`) (R201, R204, R206). -/
def captureFrontier (phase : BitVec 4) (pair : Fin 41) : Nat :=
  if phase ≤ Phase.await then 0
  else if phase = Phase.capLow then 2 * pair.val + 1
  else if phase = Phase.capHigh then 2 * pair.val + 2
  else 82

/-- Where the current read is, or where the last one timed out (R208: `PAIR` and `FAIL_PHASE` identify it). -/
def Engine.frontier (e : Engine) : Nat :=
  if e.busy then captureFrontier e.phase e.pair
  else if e.outcome = .timeout then captureFrontier e.failPhase e.pair
  else 82

/-- Every slot the capture has not reached is 0 (R201, R204, R208). -/
def Engine.LaterSlotsZero (e : Engine) : Prop := ∀ i : Fin 82, e.frontier ≤ i.val → e.pulse[i] = 0

/-! ### Capture as a pure function of the levels (R209) -/

/-- How one polling loop ends: by the other level, or at the ceiling; with the count and the levels left. -/
inductive LoopEnd where
  | other (count : Nat) (rest : List Bool)
  | ceiling (count : Nat) (rest : List Bool)
  deriving DecidableEq, Repr

/-- A loop that counts polls at `level` from `count` on; `none` when the sequence ends early (R200, R209). -/
def countLoop (level : Bool) : Nat → List Bool → Option LoopEnd
  | _, [] => none
  | count, v :: vs =>
    if v = level then
      (if 32000 ≤ count + 1 then some (.ceiling (count + 1) vs) else countLoop level (count + 1) vs)
    else some (.other count vs)

/-- What a capture leaves: where it timed out (`none` when it did not), the pair, and the counters in slot order. -/
structure CaptureResult where
  timeout : Option (BitVec 4)
  pair : Nat
  await : Nat
  slots : List Nat
  polls : Nat
  deriving DecidableEq, Repr

/-- The pairs `k, k + 1, ..., 40` with the slots counted so far; `fuel` is the number of pairs left. -/
def capturePairs (await total : Nat) : Nat → Nat → List Nat → List Bool → Option CaptureResult
  | 0, k, slots, rest => some ⟨none, k - 1, await, slots, total - rest.length⟩
  | fuel + 1, k, slots, rest =>
    match countLoop false 0 rest with
    | none => none
    | some (.ceiling n rest) => some ⟨some Phase.capLow, k, await, slots ++ [n], total - rest.length⟩
    | some (.other low rest) =>
      match countLoop true 0 rest with
      | none => none
      | some (.ceiling n rest) => some ⟨some Phase.capHigh, k, await, slots ++ [low, n], total - rest.length⟩
      | some (.other high rest) => capturePairs await total fuel (k + 1) (slots ++ [low, high]) rest

/-- `capture(s)` of R209: slots the capture did not reach are absent from `slots` and hold 0. -/
def capture (levels : List Bool) : Option CaptureResult :=
  match countLoop true 0 levels with
  | none => none
  | some (.ceiling n rest) => some ⟨some Phase.await, 0, n, [], levels.length - rest.length⟩
  | some (.other n rest) => capturePairs n levels.length 41 0 [] rest

/-! ### The decode pipeline as one function (R247) -/

/-- The result of R247's `decode_all`. -/
structure Decoded where
  outcome : ReadOutcome
  thr : Nat
  r : Fin 5 → Nat
  hum : Nat
  mag : Nat
  neg : Bool

/-- The threshold of R247 for counters `P`. -/
def thresholdOf (P : Nat → Nat) : Nat := (∑ p ∈ Finset.Icc 1 40, P (2 * p + 1)) / 40

/-- Byte `j` of R247: bit `7 - m` comes from slot `16j + 3 + 2m` (R235). -/
def byteOf (P : Nat → Nat) (j : Nat) : Nat :=
  ∑ m ∈ Finset.range 8, (if thresholdOf P ≤ P (16 * j + 3 + 2 * m) then 1 else 0) * 2 ^ (7 - m)

/-- `decode_all(P, t)` of R247. -/
def decodeAll (P : Nat → Nat) (t : Variant) : Decoded :=
  let r : Fin 5 → Nat := fun j => byteOf P j.val
  if r 4 ≠ (r 0 + r 1 + r 2 + r 3) % 256 then ⟨.checksumMismatch, thresholdOf P, r, 0, 0, false⟩
  else
    match t with
    | .a => ⟨.success, thresholdOf P, r, r 0, r 2, false⟩
    | .b => ⟨.success, thresholdOf P, r, 256 * r 0 + r 1, 256 * (r 2 % 128) + r 3, decide (r 2 / 128 = 1)⟩

/-- The pulse file as a function of the slot, 0 outside it. -/
def Engine.slot (e : Engine) (i : Nat) : Nat := if h : i < 82 then (e.pulse[i]'h).toNat else 0

/-! ### The value of the reading (R245) -/

/-- The denominator: 1 for Variant A, 10 for Variant B. -/
def Variant.denominator : Variant → ℚ
  | .a => 1
  | .b => 10

/-- The humidity the result fields denote. -/
def Engine.humidity (e : Engine) : ℚ := e.humNum.toNat / Variant.denominator e.argType

/-- The temperature the result fields denote, by sign and magnitude. -/
def Engine.temperature (e : Engine) : ℚ :=
  (if e.tempNeg then -1 else 1) * e.tempMag.toNat / Variant.denominator e.argType

/-! ### The host's presentation of the reading (R246) -/

/-- The numbers of a format. -/
def Representable (f : FloatFmt) (x : ℚ) : Prop :=
  ∃ m e : ℤ, |m| < (f.radixLessTwo + 2 : ℤ) ^ (f.digitsLessOne + 1) ∧ f.minExp ≤ e ∧ e ≤ f.minExp + f.expSpan ∧
    x = m * (f.radixLessTwo + 2 : ℚ) ^ e

/-- `r` is the representable number nearest to `x`, ties to even (R246): no other is nearer, and beside one as near `r` is
the even multiple of the gap between the two. -/
def Nearest (f : FloatFmt) (x r : ℚ) : Prop :=
  Representable f r ∧ ∀ y, Representable f y →
    |x - r| ≤ |x - y| ∧ (y ≠ r → |x - y| = |x - r| → ∃ m : ℤ, r = 2 * m * |y - r|)

/-- The result fields hold a negative zero, which Variant B can give (R246). -/
abbrev Engine.negativeZero (e : Engine) : Prop := e.argType = .b ∧ e.tempNeg = true ∧ e.tempMag = 0

/-- What a host in the format `FLOAT_FMT` presents: the humidity `h`, the temperature `t`, and whether the latter is shown
as negative zero. -/
def Engine.Presents (e : Engine) (h t : ℚ) (minusZero : Bool) : Prop :=
  Nearest Config.floatFmt e.humidity h ∧ Nearest Config.floatFmt e.temperature t ∧
    (minusZero = true ↔ e.negativeZero ∧ Config.floatFmt.signedZero = true)

end Sys2Proof.Machine
end

