-- ==== Sys2Proof/Certificates/Slice0/Obligations.lean ====
section
/-! DEFINITION. The statements about the engine, for the provers; each is listed in OBLIGATIONS.json with the rules of spec/
it formalises. A field written `x := t.eng.x` inside a description of `t` is left open: it is hidden state (R44, log 7) or a
value the next clauses give. -/

open Sys2Proof Sys2Proof.Machine

/-- R120, R121, R122, R123, R125. For every well-formed instruction, decoding its encoded bytes in its form gives
exactly that instruction, with every operand of READ at every value its field admits. -/
def Obligations.DecodeUndoesEncode : Prop :=
  ∀ i : Instr, i.wellFormed = true → decode i.form (encode i) = .ok i

/-- R121, R122, R123. If a word written to CMD decodes to an instruction, that instruction is well-formed, is a
command, and its encoded word is the written word with the ignored bits cleared: bits [31:25] for READ, bits [31:8]
for NOP and ACK. -/
def Obligations.CommandWordReencodes : Prop :=
  ∀ (w : Word) (i : Instr), decodeCommand w = .ok i →
    i.wellFormed = true ∧ i.form = .command ∧
    encodeWord i = w &&& (if w &&& 0xFF = 0x01 then 0x01FFFFFF else 0xFF)

/-- R121, R122, R123, R124, R125, R127. A command word is rejected exactly when its OP is in 0x03..0xFF, and a phase
code exactly when it is 12..15, each by its own name. Every word with OP 0x00 is NOP and every word with OP 0x02 is
ACK, whatever its other bits; every word with OP 0x01 is READ with TYPE bit 24, BANK [15:8] and PIN [23:16], whatever
bits [31:25]; and every phase code below 12 is a micro-operation. -/
def Obligations.ReservedCodesAreRejected : Prop :=
  (∀ w : Word, (3 ≤ w.toNat % 256 ↔ decodeCommand w = .error (.reservedOpcode (w.extractLsb' 0 8))) ∧
    (w.toNat % 256 = 0 → decodeCommand w = .ok .nop) ∧ (w.toNat % 256 = 2 → decodeCommand w = .ok .ack) ∧
    (w.toNat % 256 = 1 → decodeCommand w =
      .ok (.read (if w.getLsbD 24 = true then .b else .a) (w.toNat / 2 ^ 8 % 256) (w.toNat / 2 ^ 16 % 256)))) ∧
  (∀ c : BitVec 4, (12 ≤ c.toNat ↔ decodePhase c = .error (.reservedPhase c)) ∧
    (c.toNat < 12 → ∃ i : Instr, decodePhase c = .ok i ∧ i.form = .phase ∧ i.row.pattern.toNat = c.toNat))

/-- R121, R123, R125, R132. The words 0x011C0101, 0x00040001, 0x00000401, 0x01200201, 0x00000002, 0xFFFFFF02,
0x00000000 and 0xFE000001 decode to READ B 1 28, READ A 0 4, READ A 4 0, READ B 2 32, ACK, ACK, NOP and READ A 0 0,
0x000000FF is reserved, and phase codes 0x1, 0x5 and 0xB are ACQUIRE, AWAIT and SCALE. -/
def Obligations.WrittenOutWordsDecode : Prop :=
  decodeCommand 0x011C0101 = .ok (.read .b 1 28) ∧ decodeCommand 0x00040001 = .ok (.read .a 0 4) ∧
  decodeCommand 0x00000401 = .ok (.read .a 4 0) ∧ decodeCommand 0x01200201 = .ok (.read .b 2 32) ∧
  decodeCommand 0x00000002 = .ok .ack ∧ decodeCommand 0xFFFFFF02 = .ok .ack ∧ decodeCommand 0x00000000 = .ok .nop ∧
  decodeCommand 0xFE000001 = .ok (.read .a 0 0) ∧ decodeCommand 0x000000FF = .error (.reservedOpcode 0xFF) ∧
  decodePhase 0x1 = .ok .acquire ∧ decodePhase 0x5 = .ok .await ∧ decodePhase 0xB = .ok .scale

/-- R15, R126. When it is the turn of the sequencer, because the inbox is empty or because its head is the engine
move, no access hangs, and PHASE decodes to an instruction, the step is exec of that instruction on the state, less
the move taken. -/
def Obligations.StepRunsThePhase : Prop :=
  (∀ (s : State) (i : Instr), s.quiet → decodePhase s.eng.phase = .ok i → step s = exec i s) ∧
  (∀ (s : State) (i : Instr) (rest : List Move), s.inbox = .engine :: rest → s.hung = false →
    decodePhase s.eng.phase = .ok i → step s = exec i { s with inbox := rest })

/-- R46, R84, R123. When the next move is a 32-bit host write at offset 0x000 of a word that decodes to a command, the
step is exec of that command on the state less the move, with the write acknowledged on the slave port. -/
def Obligations.StepRunsTheCommand : Prop :=
  ∀ (s : State) (w : Word) (i : Instr) (rest : List Move), s.inbox = .host ⟨0, 4, .write w⟩ :: rest →
    decodeCommand w = .ok i → step s = exec i { s with inbox := rest, reply := some .written }

/-- R120, R126, 30_encoding.md. For a word of at most 8 bits, which is a phase code (the model's reading of the
table's width, log 19), the step after placing it is exec of the decoded micro-operation with PHASE at that code; for
a wider word, which is a command word, it is exec of the decoded command with the write acknowledged. -/
def Obligations.PlacedWordRunsNext : Prop :=
  ∀ (s : State) (nbits w : Nat) (i : Instr), decodeTableWord nbits w = some i →
    (nbits ≤ 8 → s.hung = false →
      step (s.withFetchWord nbits w) = exec i { s with eng := { s.eng with phase := BitVec.ofNat 4 w } }) ∧
    (8 < nbits → step (s.withFetchWord nbits w) = exec i { s with reply := some .written })

/-- R84, R124, R156. When the next move is a 32-bit host write to CMD of a word whose OP is in 0x03..0xFF, the step
only takes the move and acknowledges the write on the slave port: no engine state, no bank, no record changes, in
every state. (Ignoring the code rather than refusing it is log 12; the acknowledgement is the model's, log 11.) -/
def Obligations.ReservedCommandIsIgnored : Prop :=
  ∀ (s : State) (w : Word) (rest : List Move), s.inbox = .host ⟨0, 4, .write w⟩ :: rest → 3 ≤ w.toNat % 256 →
    step s = .next { s with inbox := rest, reply := some .written }

/-- R150. NOP answers the same state, whether BUSY is 0 or 1. -/
def Obligations.NopChangesNothing : Prop :=
  ∀ s : State, exec .nop s = .next s

/-- R125, R126, R289. The IDLE micro-operation answers the same state, and a step of a quiet machine in PHASE IDLE
answers the same state. -/
def Obligations.IdleWaits : Prop :=
  ∀ s : State, exec .idle s = .next s ∧ (s.quiet → s.eng.phase = 0 → step s = .next s)

/-- R151. When BUSY is 0, READ with encodable arguments answers the state whose engine is the reset engine but for:
BUSY 1, PHASE ACQUIRE, the three argument latches, and MAPPED and the hidden state, which it does not write; STATUS
then reads 0x00000011; banks, records and moves are unchanged. -/
def Obligations.ReadIsAccepted : Prop :=
  ∀ (s : State) (type : Variant) (bank pin : Nat), s.eng.busy = false → bank < 256 → pin < 256 →
    ∃ t : State, exec (.read type bank pin) s = .next t ∧
      t = { s with eng := { Engine.reset with
        busy := true, phase := 1, argBank := BitVec.ofNat 8 bank, argPin := BitVec.ofNat 8 pin, argType := type
        mapped := s.eng.mapped, waitCnt := s.eng.waitCnt, pollGap := s.eng.pollGap, oeHold := s.eng.oeHold
        acqPending := s.eng.acqPending } } ∧
      t.eng.argBank.toNat = bank ∧ t.eng.argPin.toNat = pin ∧ t.eng.statusWord = 0x00000011

/-- R152. When BUSY is 1, READ answers the same state whatever its arguments. -/
def Obligations.ReadWhileBusyIsIgnored : Prop :=
  ∀ (s : State) (type : Variant) (bank pin : Nat), s.eng.busy = true → exec (.read type bank pin) s = .next s

/-- R155. ACK answers the same state when BUSY is 1, and the same state with DONE 0 when BUSY is 0; outcome, results
and diagnostics are kept. -/
def Obligations.AckClearsDoneOnly : Prop :=
  ∀ s : State, exec .ack s = .next (if s.eng.busy = true then s else { s with eng := { s.eng with done := false } })

/-- R56, R57, R81, R83, R150, R152, R154, R155, R156. While BUSY is 1, a step that serves any host access, of any
offset, size, direction and data, answers the state with only the move taken and a reply noted. (Serving an access
that is not an aligned 32-bit one, with a bus error, and the reply itself are the model's choice, log 11.) -/
def Obligations.NoCommandStopsARead : Prop :=
  ∀ (s : State) (a : HostAccess) (rest : List Move), s.eng.busy = true → s.inbox = .host a :: rest →
    ∃ r : HostReply, step s = .next { s with inbox := rest, reply := some r }

/-- R170, R171, R183, R270, R274. With ARG_BANK > 3 or ARG_PIN > 31 ACQUIRE completes with INVALID_ARGUMENT and makes
no access; with a cached bank it goes to HS_HIGH and changes nothing else; otherwise, when the platform answers, it
records the request once, ends it, and goes to HS_HIGH with the bank cached on OK or completes with the outcome of the
answer, leaving MAPPED as it was; no bank register changes. -/
def Obligations.AcquireFollowsItsRule : Prop :=
  (∀ s : State, 3 < s.eng.argBank.toNat ∨ 31 < s.eng.argPin.toNat →
    exec .acquire s = .next { s with eng := { s.eng with outcome := .invalidArgument, crit := false, failPhase := s.eng.phase, busy := false, done := true, phase := 0 } }) ∧
  (∀ (s : State) (b : Fin 4), s.pinValid b → s.eng.mapped[b] = true →
    exec .acquire s = .next { s with eng := { s.eng with phase := 2 } }) ∧
  (∀ (s : State) (b : Fin 4) (r : AcqAnswer), s.pinValid b → s.eng.mapped[b] = false → s.acqAnswer = some r →
    ∃ t : State, exec .acquire s = .next t ∧ s.sameAround t ∧ t.banks = s.banks ∧ t.datainIn = s.datainIn ∧
      t.oeIn = s.oeIn ∧ t.acqIn = s.acqIn.tail ∧
      t.log = (if s.eng.acqPending = true then s.log else .acqReq b :: s.log) ∧
      t.eng =
        match r with
        | .ok => { s.eng with acqPending := false, mapped := s.eng.mapped.set b true, phase := 2 }
        | .denied => { s.eng with acqPending := false, outcome := .deviceAccessDenied, crit := false, failPhase := s.eng.phase, busy := false, done := true, phase := 0 }
        | .mapFailed => { s.eng with acqPending := false, outcome := .mappingFailed, crit := false, failPhase := s.eng.phase, busy := false, done := true, phase := 0 }
        | .unavailable => { s.eng with acqPending := false, outcome := .gpioUnavailable, crit := false, failPhase := s.eng.phase, busy := false, done := true, phase := 0 })

/-- R170, R172, R279. With a valid handle, an uncached bank and no answer yet: when no request is pending, ACQUIRE
answers a state whose engine differs only in ACQ_PENDING being 1, whose banks are unchanged, and whose record has
gained the one request; when the request is pending it is stuck, and so is the step of the sequencer in PHASE ACQUIRE,
with neither outcome nor timeout. (The two stuck cases of R279 are faults of the model, log 5 and log 18.) -/
def Obligations.AcquireWaitsForThePlatform : Prop :=
  (∀ (s : State) (b : Fin 4), s.pinValid b → s.eng.mapped[b] = false → s.acqAnswer = none → s.eng.acqPending = false →
    ∃ t : State, exec .acquire s = .next t ∧ t.eng = { s.eng with acqPending := true } ∧ t.banks = s.banks ∧
      s.sameAround t ∧ t.datainIn = s.datainIn ∧ t.oeIn = s.oeIn ∧ t.acqIn = s.acqIn.tail ∧
      t.log = .acqReq b :: s.log) ∧
  (∀ s : State, s.awaitsPlatform → exec .acquire s = .fault .platformSilent ∧
    (s.sequencerMoves → s.hung = false → s.eng.phase = 1 → step s = .fault .platformSilent))

/-- R92, R97, R174. For a valid handle, after DIR_OUT bit ARG_PIN of the bank's OE is 0 and every other bit is the bit
of the word read; DATAOUT and the other banks are unchanged; the record gains exactly the read and the write; of the
engine only OE_HOLD may differ. -/
def Obligations.DirOutClearsOnlyItsBit : Prop :=
  ∀ (s : State) (b : Fin 4), s.pinValid b →
    (∀ n < 32, (s.dirOut b).banks[b].oe.getLsbD n =
      (if n = s.eng.argPin.toNat then false else s.oeWord.getLsbD n)) ∧
    (s.dirOut b).banks[b].dataout = s.banks[b].dataout ∧ (∀ c : Fin 4, c ≠ b → (s.dirOut b).banks[c] = s.banks[c]) ∧
    (s.dirOut b).log =
      .write b .oe (s.oeWord &&& ~~~(1#32 <<< s.eng.argPin.toNat)) :: .read b .oe s.oeWord :: s.log ∧
    (s.dirOut b).eng = { s.eng with oeHold := (s.dirOut b).eng.oeHold }

/-- R92, R97, R175. For a valid handle, after DIR_IN bit ARG_PIN of the bank's OE is 1 and every other bit is the bit
of the word read; DATAOUT and the other banks are unchanged; the record gains exactly the read and the write; of the
engine only OE_HOLD may differ. -/
def Obligations.DirInSetsOnlyItsBit : Prop :=
  ∀ (s : State) (b : Fin 4), s.pinValid b →
    (∀ n < 32, (s.dirIn b).banks[b].oe.getLsbD n =
      (if n = s.eng.argPin.toNat then true else s.oeWord.getLsbD n)) ∧
    (s.dirIn b).banks[b].dataout = s.banks[b].dataout ∧ (∀ c : Fin 4, c ≠ b → (s.dirIn b).banks[c] = s.banks[c]) ∧
    (s.dirIn b).log =
      .write b .oe (s.oeWord ||| (1#32 <<< s.eng.argPin.toNat)) :: .read b .oe s.oeWord :: s.log ∧
    (s.dirIn b).eng = { s.eng with oeHold := (s.dirIn b).eng.oeHold }

/-- R96, R176. For a valid handle, LEVEL_HIGH leaves DATAOUT bit ARG_PIN 1 and LEVEL_LOW leaves it 0; every other
DATAOUT bit, OE, the other banks and the engine are unchanged; the record gains one write of the mask to SET or CLR.
-/
def Obligations.LevelWritesTouchOnlyTheirPin : Prop :=
  ∀ (s : State) (b : Fin 4), s.pinValid b →
    (∀ n < 32,
      (s.levelHigh b).banks[b].dataout.getLsbD n =
        (if n = s.eng.argPin.toNat then true else s.banks[b].dataout.getLsbD n) ∧
      (s.levelLow b).banks[b].dataout.getLsbD n =
        (if n = s.eng.argPin.toNat then false else s.banks[b].dataout.getLsbD n)) ∧
    (s.levelHigh b).banks[b].oe = s.banks[b].oe ∧ (s.levelLow b).banks[b].oe = s.banks[b].oe ∧
    (∀ c : Fin 4, c ≠ b → (s.levelHigh b).banks[c] = s.banks[c] ∧ (s.levelLow b).banks[c] = s.banks[c]) ∧
    (s.levelHigh b).log = .write b .set (1#32 <<< s.eng.argPin.toNat) :: s.log ∧
    (s.levelLow b).log = .write b .clr (1#32 <<< s.eng.argPin.toNat) :: s.log ∧
    (s.levelHigh b).eng = s.eng ∧ (s.levelLow b).eng = s.eng

/-- R97, R320. Whatever other masters leave in the bank between the read and the write of a direction change, the
write of OE_HOLD with bit ARG_PIN cleared (DIR_OUT) or set (DIR_IN) leaves OE at the word read earlier with that one
bit changed, and keeps their change to DATAOUT. -/
def Obligations.OeWriteUndoesOthersChange : Prop :=
  ∀ (s : State) (b : Fin 4) (oe dataout : Word),
    let interfered := (s.readOe b).othersAct b oe dataout
    (interfered.writeOe b (interfered.eng.oeHold &&& ~~~interfered.pinMask)).banks[b] =
        ⟨s.oeWord &&& ~~~(1#32 <<< s.eng.argPin.toNat), dataout⟩ ∧
      (interfered.writeOe b (interfered.eng.oeHold ||| interfered.pinMask)).banks[b] =
        ⟨s.oeWord ||| (1#32 <<< s.eng.argPin.toNat), dataout⟩

/-- R95, R174, R176, R180, R184. With a valid handle HS_HIGH completes: the bank has OE as read with bit ARG_PIN clear
and DATAOUT bit ARG_PIN set, other banks unchanged, the record gains read OE, write OE, write SET, wait 500 in that
order, PHASE is HS_LOW, and of the engine only PHASE and the hidden WAIT_CNT and OE_HOLD differ; sensor words,
acquisition answers and everything around are kept. -/
def Obligations.HsHighDrivesThePinHigh : Prop :=
  ∀ (s : State) (b : Fin 4), s.pinValid b →
    ∃ t : State, exec .hsHigh s = .next t ∧
      t.eng = { s.eng with phase := 3, waitCnt := t.eng.waitCnt, oeHold := t.eng.oeHold } ∧
      t.banks[b] = ⟨s.oeWord &&& ~~~(1#32 <<< s.eng.argPin.toNat),
        s.banks[b].dataout ||| (1#32 <<< s.eng.argPin.toNat)⟩ ∧
      (∀ c : Fin 4, c ≠ b → t.banks[c] = s.banks[c]) ∧
      t.log = [.wait 500, .write b .set (1#32 <<< s.eng.argPin.toNat),
        .write b .oe (s.oeWord &&& ~~~(1#32 <<< s.eng.argPin.toNat)), .read b .oe s.oeWord] ++ s.log ∧
      s.sameAround t ∧ t.datainIn = s.datainIn ∧ t.acqIn = s.acqIn ∧ t.oeIn = s.oeIn.tail

/-- R176, R180, R185. With a valid handle HS_LOW completes: DATAOUT bit ARG_PIN of the bank is cleared, its OE and the
other banks are unchanged, the record gains write CLR and wait 20, PHASE is RELEASE, and of the engine only PHASE and
the hidden WAIT_CNT differ; all drawn inputs and everything around are kept. -/
def Obligations.HsLowDrivesThePinLow : Prop :=
  ∀ (s : State) (b : Fin 4), s.pinValid b →
    ∃ t : State, exec .hsLow s = .next t ∧
      t.eng = { s.eng with phase := 4, waitCnt := t.eng.waitCnt } ∧
      t.banks[b] = ⟨s.banks[b].oe, s.banks[b].dataout &&& ~~~(1#32 <<< s.eng.argPin.toNat)⟩ ∧
      (∀ c : Fin 4, c ≠ b → t.banks[c] = s.banks[c]) ∧
      t.log = [.wait 20, .write b .clr (1#32 <<< s.eng.argPin.toNat)] ++ s.log ∧
      s.sameAround t ∧ t.datainIn = s.datainIn ∧ t.acqIn = s.acqIn ∧ t.oeIn = s.oeIn

/-- R175, R186. With a valid handle RELEASE completes: the bank has OE as read with bit ARG_PIN set and its DATAOUT,
so the bank no longer drives the pin; other banks unchanged, the record gains read OE and write OE, PHASE is AWAIT,
and of the engine only PHASE and the hidden OE_HOLD differ. -/
def Obligations.ReleaseMakesThePinAnInput : Prop :=
  ∀ (s : State) (b : Fin 4), s.pinValid b →
    ∃ t : State, exec .release s = .next t ∧
      t.eng = { s.eng with phase := 5, oeHold := t.eng.oeHold } ∧
      t.banks[b] = ⟨s.oeWord ||| (1#32 <<< s.eng.argPin.toNat), s.banks[b].dataout⟩ ∧
      t.banks[b].driven s.eng.argPin.toNat = none ∧ (∀ c : Fin 4, c ≠ b → t.banks[c] = s.banks[c]) ∧
      t.log = [.write b .oe (s.oeWord ||| (1#32 <<< s.eng.argPin.toNat)), .read b .oe s.oeWord] ++ s.log ∧
      s.sameAround t ∧ t.datainIn = s.datainIn ∧ t.acqIn = s.acqIn ∧ t.oeIn = s.oeIn.tail

/-- R187. From HS_HIGH with a valid handle and only the sequencer moving, three steps reach AWAIT, and the record has
gained, in order: read OE, write OE with bit ARG_PIN cleared, write SET, wait 500, write CLR, wait 20, read OE, write
OE with bit ARG_PIN set; and each step in AWAIT, CAP_LOW and CAP_HIGH adds exactly one DATAIN read to the record. -/
def Obligations.HandshakeTraceIsExact : Prop :=
  (∀ (s : State) (b : Fin 4), s.quiet → s.pinValid b → s.eng.phase = 2 →
    ∃ (t : State) (w1 w2 : Word), Host.Core.run Sys2Proof.core 3 s = .next t ∧ t.eng.phase = 5 ∧
      t.log.reverse = s.log.reverse ++
        [.read b .oe w1, .write b .oe (w1 &&& ~~~(1#32 <<< s.eng.argPin.toNat)),
         .write b .set (1#32 <<< s.eng.argPin.toNat), .wait 500, .write b .clr (1#32 <<< s.eng.argPin.toNat), .wait 20,
         .read b .oe w2, .write b .oe (w2 ||| (1#32 <<< s.eng.argPin.toNat))]) ∧
  (∀ (s : State) (b : Fin 4), s.quiet → s.pinValid b → s.eng.phase = 5 ∨ s.eng.phase = 6 ∨ s.eng.phase = 7 →
    ∃ (t : State) (d : Word), step s = .next t ∧ t.log = .read b .datain d :: s.log) ∧
  (∀ s : State, s.quiet → s.eng.phase = 8 ∨ s.eng.phase = 9 ∨ s.eng.phase = 10 ∨ s.eng.phase = 11 →
    ∃ t : State, step s = .next t ∧ t.log = s.log)

/-- R201. With a valid handle AWAIT completes with one DATAIN read: a high level increments AWAIT_COUNT and completes
with TIMEOUT in the same step when it reaches 32000; a low level sets PAIR 0, CRIT 1 and PHASE CAP_LOW and counts
nothing; of the rest of the engine only the hidden POLL_GAP may differ; banks and the other inputs are kept. -/
def Obligations.AwaitCountsHighPolls : Prop :=
  ∀ (s : State) (b : Fin 4), s.pinValid b →
    ∃ t : State, exec .await s = .next t ∧ t.banks = s.banks ∧ t.log = .read b .datain s.datainWord :: s.log ∧ t.datainIn = s.datainIn.tail ∧
      t.oeIn = s.oeIn ∧ t.acqIn = s.acqIn ∧ s.sameAround t ∧
      t.eng =
        (if s.datainWord.getLsbD s.eng.argPin.toNat = true then
          (if 32000 ≤ (s.eng.awaitCount + 1).toNat then
            { s.eng with
              pollGap := t.eng.pollGap, awaitCount := s.eng.awaitCount + 1, crit := false, outcome := .timeout
              failPhase := s.eng.phase, busy := false, done := true, phase := 0 }
          else { s.eng with pollGap := t.eng.pollGap, awaitCount := s.eng.awaitCount + 1 })
        else { s.eng with pollGap := t.eng.pollGap, pair := 0, crit := true, phase := 6 })

/-- R204. With a valid handle and PAIR = k, CAP_LOW completes with one DATAIN read: a low level increments PULSE[2k]
and, when it reaches 32000, closes the window and completes with TIMEOUT in the same step; a high level goes to
CAP_HIGH and counts nothing; every other slot and all else is kept but the hidden POLL_GAP. -/
def Obligations.CapLowCountsLowPolls : Prop :=
  ∀ (s : State) (b : Fin 4), s.pinValid b →
    ∃ t : State, exec .capLow s = .next t ∧ t.banks = s.banks ∧ t.log = .read b .datain s.datainWord :: s.log ∧ t.datainIn = s.datainIn.tail ∧
      t.oeIn = s.oeIn ∧ t.acqIn = s.acqIn ∧ s.sameAround t ∧
      t.eng =
        (if s.datainWord.getLsbD s.eng.argPin.toNat = false then
          (if 32000 ≤ (s.eng.pulse[2 * s.eng.pair.val] + 1).toNat then
            { s.eng with
              pollGap := t.eng.pollGap, pulse := s.eng.pulse.set (2 * s.eng.pair.val) (s.eng.pulse[2 * s.eng.pair.val] + 1), crit := false
              outcome := .timeout, failPhase := s.eng.phase, busy := false, done := true, phase := 0 }
          else
            { s.eng with pollGap := t.eng.pollGap, pulse := s.eng.pulse.set (2 * s.eng.pair.val) (s.eng.pulse[2 * s.eng.pair.val] + 1) })
        else { s.eng with pollGap := t.eng.pollGap, phase := 7 })

/-- R206. With a valid handle and PAIR = k, CAP_HIGH completes with one DATAIN read: a high level increments
PULSE[2k+1] and, when it reaches 32000, closes the window and completes with TIMEOUT in the same step; a low level
counts nothing and goes to CAP_LOW of pair k + 1, or for k = 40 closes the window and goes to THRESH with PAIR still
40; all else is kept but the hidden POLL_GAP. -/
def Obligations.CapHighCountsHighPolls : Prop :=
  ∀ (s : State) (b : Fin 4), s.pinValid b →
    ∃ t : State, exec .capHigh s = .next t ∧ t.banks = s.banks ∧ t.log = .read b .datain s.datainWord :: s.log ∧ t.datainIn = s.datainIn.tail ∧
      t.oeIn = s.oeIn ∧ t.acqIn = s.acqIn ∧ s.sameAround t ∧
      t.eng =
        (if s.datainWord.getLsbD s.eng.argPin.toNat = true then
          (if 32000 ≤ (s.eng.pulse[2 * s.eng.pair.val + 1] + 1).toNat then
            { s.eng with
              pollGap := t.eng.pollGap, pulse := s.eng.pulse.set (2 * s.eng.pair.val + 1) (s.eng.pulse[2 * s.eng.pair.val + 1] + 1), crit := false
              outcome := .timeout, failPhase := s.eng.phase, busy := false, done := true, phase := 0 }
          else
            { s.eng with pollGap := t.eng.pollGap, pulse := s.eng.pulse.set (2 * s.eng.pair.val + 1) (s.eng.pulse[2 * s.eng.pair.val + 1] + 1) })
        else if h : s.eng.pair.val < 40 then
          { s.eng with pollGap := t.eng.pollGap, pair := ⟨s.eng.pair.val + 1, by omega⟩, phase := 6 }
        else { s.eng with pollGap := t.eng.pollGap, crit := false, phase := 8 })

/-- R91, R177, 41_pin_access.md. Two runs of AWAIT, CAP_LOW or CAP_HIGH from states that differ only in the next
DATAIN word, with the same bit ARG_PIN, end alike: both in next states with equal engine, banks, sensor words and
surroundings, or both in the same fault. -/
def Obligations.OtherPinsDoNotMatter : Prop :=
  ∀ (i : Instr) (s : State) (d d' : Word) (rest : List Word), i = .await ∨ i = .capLow ∨ i = .capHigh →
    d.getLsbD s.eng.argPin.toNat = d'.getLsbD s.eng.argPin.toNat →
    match exec i { s with datainIn := d :: rest }, exec i { s with datainIn := d' :: rest } with
    | .next t, .next t' => t.eng = t'.eng ∧ t.banks = t'.banks ∧ t.datainIn = t'.datainIn ∧ t.draws = t'.draws ∧
        t.sameAround t'
    | .fault f, .fault f' => f = f'
    | _, _ => False

/-- R231. THRESH completes from every state with THRESHOLD = (the sum of PULSE[3], PULSE[5], ..., PULSE[81]) div 40,
PHASE DECODE, and nothing else changed: no low counter and not pair 0 takes part. -/
def Obligations.ThreshIsTheIntegerMean : Prop :=
  ∀ s : State, exec .thresh s = .next { s with eng := { s.eng with
      threshold := BitVec.ofNat 32 ((∑ p ∈ Finset.Icc 1 40, s.eng.slot (2 * p + 1)) / 40), phase := 9 } }

/-- R233, R235. DECODE completes from every state, changing only RAW and PHASE (to CHECK); bit 7 - m of RAW[j] is 1
exactly when PULSE[16j + 3 + 2m], the high counter of data pair 8j + 1 + m, is at or above THRESHOLD, for every j in
0..4 and m in 0..7. -/
def Obligations.DecodePacksMostSignificantFirst : Prop :=
  ∀ s : State, ∃ t : State, exec .decode s = .next t ∧
      t = { s with eng := { s.eng with raw := t.eng.raw, phase := 10 } } ∧
      (∀ (j : Fin 5) (m : Fin 8),
        t.eng.raw[j].getLsbD (7 - m.val) = decide (s.eng.threshold.toNat ≤ s.eng.slot (2 * (8 * j.val + 1 + m.val) + 1))) ∧
      (∀ j : Fin 5, t.eng.raw[j].toNat = ∑ m ∈ Finset.range 8,
        (if s.eng.threshold.toNat ≤ s.eng.slot (16 * j.val + 3 + 2 * m) then 1 else 0) * 2 ^ (7 - m))

/-- R237, R238. CHECK completes from every state: when RAW[4] equals (RAW[0] + RAW[1] + RAW[2] + RAW[3]) mod 256, only
PHASE changes, to SCALE; otherwise the read completes with CHECKSUM_MISMATCH, FAIL_PHASE the phase that raised it, and
RAW, THRESHOLD, PULSE and the result fields keep their values. -/
def Obligations.CheckComparesTheByteSum : Prop :=
  ∀ s : State, exec .check s = .next { s with eng :=
      if s.eng.raw[4].toNat =
          (s.eng.raw[0].toNat + s.eng.raw[1].toNat + s.eng.raw[2].toNat + s.eng.raw[3].toNat) % 256 then
        { s.eng with phase := 11 }
      else { s.eng with outcome := .checksumMismatch, crit := false, failPhase := s.eng.phase, busy := false, done := true, phase := 0 } }

/-- R241. With ARG_TYPE A, SCALE completes with HUM_NUM = RAW[0], TEMP_MAG = RAW[2], TEMP_NEG = 0, SUCCESS, FAIL_PHASE
0, CRIT 0, BUSY 0, DONE 1, PHASE IDLE, and all else unchanged. -/
def Obligations.ScaleVariantA : Prop :=
  ∀ s : State, s.eng.argType = .a →
    ∃ t : State, exec .scale s = .next t ∧
      t = { s with eng := { s.eng with
        humNum := t.eng.humNum, tempMag := t.eng.tempMag, tempNeg := false, outcome := .success, crit := false
        failPhase := 0, busy := false, done := true, phase := 0 } } ∧
      t.eng.humNum.toNat = s.eng.raw[0].toNat ∧ t.eng.tempMag.toNat = s.eng.raw[2].toNat

/-- R242. With ARG_TYPE B, SCALE completes with HUM_NUM = 256 RAW[0] + RAW[1], TEMP_MAG = 256 (RAW[2] mod 128) +
RAW[3], TEMP_NEG = bit 7 of RAW[2], all exact, SUCCESS, FAIL_PHASE 0, CRIT 0, BUSY 0, DONE 1, PHASE IDLE, and all else
unchanged. -/
def Obligations.ScaleVariantB : Prop :=
  ∀ s : State, s.eng.argType = .b →
    ∃ t : State, exec .scale s = .next t ∧
      t = { s with eng := { s.eng with
        humNum := t.eng.humNum, tempMag := t.eng.tempMag, tempNeg := t.eng.tempNeg, outcome := .success, crit := false
        failPhase := 0, busy := false, done := true, phase := 0 } } ∧
      t.eng.humNum.toNat = 256 * s.eng.raw[0].toNat + s.eng.raw[1].toNat ∧
      t.eng.tempMag.toNat = 256 * (s.eng.raw[2].toNat % 128) + s.eng.raw[3].toNat ∧
      t.eng.tempNeg = decide (128 ≤ s.eng.raw[2].toNat)

/-- R241, R242, R245. After SCALE the denoted humidity and temperature are, for Variant A, RAW[0] and RAW[2]; for
Variant B, (256 RAW[0] + RAW[1]) / 10 and plus or minus (256 (RAW[2] mod 128) + RAW[3]) / 10, negative exactly when
RAW[2] is at least 128; as rationals. -/
def Obligations.ReadingIsExact : Prop :=
  ∀ s : State, ∃ t : State, exec .scale s = .next t ∧
      match s.eng.argType with
      | .a => t.eng.humidity = (s.eng.raw[0].toNat : ℚ) ∧ t.eng.temperature = (s.eng.raw[2].toNat : ℚ)
      | .b => t.eng.humidity = (256 * s.eng.raw[0].toNat + s.eng.raw[1].toNat : ℚ) / 10 ∧
          t.eng.temperature = (if 128 ≤ s.eng.raw[2].toNat then -1 else 1) *
            (256 * (s.eng.raw[2].toNat % 128 : ℕ) + s.eng.raw[3].toNat : ℚ) / 10

/-- R230, 43_decode.md. If THRESH, DECODE, CHECK or SCALE answers a next state, the pulse file, AWAIT_COUNT, PAIR, the
argument latches, MAPPED and the hidden state are unchanged, and so is everything outside the engine: banks, records,
inputs, moves and the draw counter. -/
def Obligations.DecodePhasesFrame : Prop :=
  ∀ (i : Instr) (s t : State), i = .thresh ∨ i = .decode ∨ i = .check ∨ i = .scale → exec i s = .next t →
    t = { s with eng := t.eng } ∧ t.eng.pulse = s.eng.pulse ∧ t.eng.awaitCount = s.eng.awaitCount ∧
    t.eng.pair = s.eng.pair ∧ t.eng.argBank = s.eng.argBank ∧ t.eng.argPin = s.eng.argPin ∧
    t.eng.argType = s.eng.argType ∧ t.eng.mapped = s.eng.mapped ∧ t.eng.waitCnt = s.eng.waitCnt ∧
    t.eng.pollGap = s.eng.pollGap ∧ t.eng.oeHold = s.eng.oeHold ∧ t.eng.acqPending = s.eng.acqPending

/-- R232. After THRESH, some data high counter is at least THRESHOLD (so at least one bit decodes to 1) and some is at
most THRESHOLD; it is at most 31999 when every data high counter is; and when all forty are equal it equals them. -/
def Obligations.ThresholdLiesBetweenTheCounters : Prop :=
  ∀ s : State, ∃ t : State, exec .thresh s = .next t ∧
      (∃ p ∈ Finset.Icc 1 40, t.eng.threshold.toNat ≤ s.eng.slot (2 * p + 1)) ∧
      (∃ p ∈ Finset.Icc 1 40, s.eng.slot (2 * p + 1) ≤ t.eng.threshold.toNat) ∧
      ((∀ p ∈ Finset.Icc 1 40, s.eng.slot (2 * p + 1) ≤ 31999) → t.eng.threshold.toNat ≤ 31999) ∧
      (∀ v, (∀ p ∈ Finset.Icc 1 40, s.eng.slot (2 * p + 1) = v) → t.eng.threshold.toNat = v)

/-- R236. From THRESH with only the sequencer moving, the two steps THRESH and DECODE leave some RAW byte nonzero; and
when all forty data high counters are equal every byte is 0xFF and the third step completes with CHECKSUM_MISMATCH. -/
def Obligations.AllZeroFrameIsNeverDecoded : Prop :=
  ∀ s : State, s.quiet → s.eng.phase = 8 →
    ∃ t : State, Host.Core.run Sys2Proof.core 2 s = .next t ∧ t.eng.phase = 10 ∧ (∃ j : Fin 5, t.eng.raw[j] ≠ 0) ∧
      ((∀ p ∈ Finset.Icc 1 40, s.eng.slot (2 * p + 1) = s.eng.slot 3) →
        (∀ j : Fin 5, t.eng.raw[j] = 0xFF) ∧
        ∃ u : State, Host.Core.run Sys2Proof.core 3 s = .next u ∧ u.eng.outcome = .checksumMismatch)

/-- R248. If every data high counter is o for the pairs in S and z otherwise, z < o, then after THRESH and DECODE the
threshold is z + floor(n1 (o - z) / 40) with n1 the size of S; the bit of pair p is 1 exactly when p is in S or n1 (o
- z) < 40; and in the latter case every bit is 1 and the third step completes with CHECKSUM_MISMATCH. -/
def Obligations.TwoLevelCaptureDecodes : Prop :=
  ∀ (s : State) (S : Finset Nat) (z o : Nat), s.quiet → s.eng.phase = 8 → S ⊆ Finset.Icc 1 40 → z < o →
    (∀ p ∈ Finset.Icc 1 40, s.eng.slot (2 * p + 1) = if p ∈ S then o else z) →
    ∃ t : State, Host.Core.run Sys2Proof.core 2 s = .next t ∧
      t.eng.threshold.toNat = z + S.card * (o - z) / 40 ∧
      (∀ p ∈ Finset.Icc 1 40, (t.eng.raw.toList.getD ((p - 1) / 8) 0).getLsbD (7 - (p - 1) % 8) =
        decide (p ∈ S ∨ S.card * (o - z) < 40)) ∧
      (S.card * (o - z) < 40 →
        ∃ u : State, Host.Core.run Sys2Proof.core 3 s = .next u ∧ u.eng.outcome = .checksumMismatch)

/-- R230, R239, R247, R272. From THRESH with only the sequencer moving and the result fields zero, as a read has them,
at most four steps complete the read with exactly the outcome, threshold, bytes and scaled fields of decode_all
applied to the pulse file and the type; FAIL_PHASE is 0 on success and CHECK (10) on mismatch; and the pulse file, the
banks and the records are unchanged. -/
def Obligations.DecodePipelineIsDecodeAll : Prop :=
  ∀ s : State, s.quiet → s.eng.phase = 8 → s.eng.resultsZero →
    ∃ k ≤ 4, ∃ t : State, Host.Core.run Sys2Proof.core k s = .next t ∧
      t.eng.outcome = (decodeAll s.eng.slot s.eng.argType).outcome ∧
      t.eng.threshold.toNat = (decodeAll s.eng.slot s.eng.argType).thr ∧
      (∀ j : Fin 5, t.eng.raw[j].toNat = (decodeAll s.eng.slot s.eng.argType).r j) ∧
      t.eng.humNum.toNat = (decodeAll s.eng.slot s.eng.argType).hum ∧
      t.eng.tempMag.toNat = (decodeAll s.eng.slot s.eng.argType).mag ∧
      t.eng.tempNeg = (decodeAll s.eng.slot s.eng.argType).neg ∧
      t.eng.failPhase = (if t.eng.outcome = .success then 0 else 10) ∧
      t.eng.busy = false ∧ t.eng.done = true ∧ t.eng.phase = 0 ∧ t.eng.pulse = s.eng.pulse ∧
      t.banks = s.banks ∧ t.log = s.log

/-- R200, R201, R204, R206, R207, R208, R209. From AWAIT as a read enters it (counters zero, PAIR 0, valid handle,
only the sequencer moving), if capture of the levels the sensor's words give at bit ARG_PIN answers a result, then
after exactly as many steps as the result has polls the machine has the result's AWAIT_COUNT, slots and PAIR, has used
exactly that many words, and is in THRESH with the window closed, or complete with TIMEOUT at the result's phase. -/
def Obligations.CaptureIsThePureFunction : Prop :=
  ∀ (s : State) (b : Fin 4) (r : CaptureResult), s.quiet → s.pinValid b → s.eng.phase = 5 → s.eng.awaitCount = 0 →
    s.eng.pulse = Vector.replicate 82 0 → s.eng.pair = 0 →
    capture (s.datainIn.map (fun w => w.getLsbD s.eng.argPin.toNat)) = some r →
    ∃ t : State, Host.Core.run Sys2Proof.core r.polls s = .next t ∧ t.eng.awaitCount.toNat = r.await ∧
      (∀ i : Nat, t.eng.slot i = r.slots.getD i 0) ∧ t.eng.pair.val = r.pair ∧
      t.datainIn = s.datainIn.drop r.polls ∧ t.banks = s.banks ∧ t.eng.crit = false ∧
      match r.timeout with
      | none => t.eng.phase = 8 ∧ t.eng.busy = s.eng.busy ∧ t.eng.done = s.eng.done ∧ t.eng.outcome = s.eng.outcome
      | some p => t.eng.phase = 0 ∧ t.eng.busy = false ∧ t.eng.done = true ∧ t.eng.outcome = .timeout ∧
          t.eng.failPhase = p

/-- R210. Every result of capture used at most 2,656,000 polls; a successful one has 82 slots and used AWAIT_COUNT + 1
plus the sum of (slot + 1); and capture of every sequence of at least 2,656,000 levels answers a result, so every
capture ends. -/
def Obligations.CaptureUsesBoundedPolls : Prop :=
  (∀ (levels : List Bool) (r : CaptureResult), capture levels = some r →
    r.polls ≤ 2656000 ∧
    (r.timeout = none → r.slots.length = 82 ∧ r.polls = r.await + 1 + (r.slots.map (· + 1)).sum)) ∧
  (∀ levels : List Bool, 2656000 ≤ levels.length → (capture levels).isSome = true)

/-- R275. Completion with any code gives CRIT 0, OUTCOME the code, FAIL_PHASE 0 on SUCCESS and else the phase that
raised it, BUSY 0, DONE 1 and PHASE IDLE, and leaves everything else, in the engine and outside, unchanged. -/
def Obligations.CompletionWritesItsFieldsOnly : Prop :=
  ∀ (code : ReadOutcome) (s : State), s.complete code = { s with eng := { s.eng with
      crit := false, outcome := code, failPhase := (if code = .success then 0 else s.eng.phase), busy := false
      done := true, phase := 0 } }

/-- R58, R59, R311. State.reset meets every clause of the legality invariant, is in IDLE with BUSY and DONE 0, and has
every slot beyond the capture frontier at 0. -/
def Obligations.ResetIsLegal : Prop :=
  State.reset.Legal ∧ State.reset.eng.phase = 0 ∧ State.reset.eng.busy = false ∧ State.reset.eng.done = false ∧
  State.reset.eng.LaterSlotsZero

/-- R34, R37, R38, R39, R41, R59, R127, R170, R171, R179, R272. For every legal state, reachable or not, if a step of
any agent answers a next state, that state is legal: clauses (a) to (h) of R59 with (c) in both directions, no
reserved phase code, results zero and no outcome while busy, a valid and mapped pin from HS_HIGH on, a pending request
only in ACQUIRE and for a valid uncached bank, a matching checksum in SCALE, THRESHOLD at most 31999, and an access
that hangs only in a phase that issues one. (That ACQ_PENDING is 0 outside its use is log 7, and the hang as a move is
log 18: both the model's reading.) -/
def Obligations.StepKeepsLegal : Prop :=
  ∀ s t : State, s.Legal → step s = .next t → t.Legal

/-- R59, R127, R172, R271, R279. From every legal state in which the turn is not the sequencer's, or no access hangs
and no request waits for the platform's answer, the step answers a next state: neither fault nor refusal, whichever
agent moves. (The two cases left out are those of R279, which the model represents as faults of the sequencer's turn:
log 5 and log 18.) -/
def Obligations.LegalMachineStopsOnlyWhereStuck : Prop :=
  ∀ s : State, s.Legal → (s.sequencerMoves → s.hung = false ∧ ¬s.awaitsPlatform) → ∃ t : State, step s = .next t

/-- R201, R204, R206, R208. For every legal state with every slot at or beyond the capture frontier zero (all slots up
to AWAIT, slots above 2k in CAP_LOW and above 2k + 1 in CAP_HIGH of pair k, and the same by FAIL_PHASE and PAIR after
a TIMEOUT), every step keeps this. -/
def Obligations.LaterSlotsStayZero : Prop :=
  ∀ s t : State, s.Legal → s.eng.LaterSlotsZero → step s = .next t → t.eng.LaterSlotsZero

/-- R43, R151, R170, R313. In a step that is not a reset, a MAPPED bit that is 1 stays 1, and one that becomes 1 does
so only while PHASE is ACQUIRE, for the bank in ARG_BANK, on the platform's answer OK. -/
def Obligations.MappedChangesOnlyByAcquire : Prop :=
  ∀ (s t : State) (b : Fin 4), step s = .next t → (∀ n rest, s.inbox ≠ .reset n :: rest) →
    (s.eng.mapped[b] = true → t.eng.mapped[b] = true) ∧
    (s.eng.mapped[b] = false → t.eng.mapped[b] = true →
      s.eng.phase = 1 ∧ s.eng.argBank.toNat = b.val ∧ s.acqAnswer = some .ok)

/-- R32, R33, R34, R35, R36, R37, R38, R39, R40, R41, R42, R43. If an instruction answers a next state in which a
register differs, the instruction is one of that register's writers: PULSE by READ, CAP_LOW, CAP_HIGH; AWAIT_COUNT by
READ, AWAIT; THRESHOLD by READ, THRESH; RAW by READ, DECODE; the result fields by READ, SCALE; the argument latches by
READ; PAIR by READ, AWAIT, CAP_HIGH; MAPPED by ACQUIRE; PHASE by all but NOP, ACK and IDLE; CRIT is raised only by
AWAIT; BUSY, OUTCOME, FAIL_PHASE, and CRIT when it falls, by READ and by the six that can complete a read, ACQUIRE,
AWAIT, CAP_LOW, CAP_HIGH, CHECK and SCALE; DONE by those seven and ACK. -/
def Obligations.EachRegisterHasItsWriters : Prop :=
  ∀ (i : Instr) (s t : State), exec i s = .next t →
    (t.eng.pulse ≠ s.eng.pulse → (∃ type bank pin, i = .read type bank pin) ∨ i = .capLow ∨ i = .capHigh) ∧
    (t.eng.awaitCount ≠ s.eng.awaitCount → (∃ type bank pin, i = .read type bank pin) ∨ i = .await) ∧
    (t.eng.threshold ≠ s.eng.threshold → (∃ type bank pin, i = .read type bank pin) ∨ i = .thresh) ∧
    (t.eng.raw ≠ s.eng.raw → (∃ type bank pin, i = .read type bank pin) ∨ i = .decode) ∧
    (t.eng.humNum ≠ s.eng.humNum ∨ t.eng.tempMag ≠ s.eng.tempMag ∨ t.eng.tempNeg ≠ s.eng.tempNeg →
      (∃ type bank pin, i = .read type bank pin) ∨ i = .scale) ∧
    (t.eng.argBank ≠ s.eng.argBank ∨ t.eng.argPin ≠ s.eng.argPin ∨ t.eng.argType ≠ s.eng.argType → (∃ type bank pin, i = .read type bank pin)) ∧
    (t.eng.pair ≠ s.eng.pair → (∃ type bank pin, i = .read type bank pin) ∨ i = .await ∨ i = .capHigh) ∧
    (t.eng.mapped ≠ s.eng.mapped → i = .acquire) ∧
    (t.eng.phase ≠ s.eng.phase → i ≠ .nop ∧ i ≠ .ack ∧ i ≠ .idle) ∧
    (s.eng.crit = false → t.eng.crit = true → i = .await) ∧
    (s.eng.crit = true → t.eng.crit = false → (∃ type bank pin, i = .read type bank pin) ∨ i = .acquire ∨ i = .await ∨ i = .capLow ∨ i = .capHigh ∨ i = .check ∨ i = .scale) ∧
    (t.eng.busy ≠ s.eng.busy ∨ t.eng.outcome ≠ s.eng.outcome ∨ t.eng.failPhase ≠ s.eng.failPhase →
      (∃ type bank pin, i = .read type bank pin) ∨ i = .acquire ∨ i = .await ∨ i = .capLow ∨ i = .capHigh ∨ i = .check ∨ i = .scale) ∧
    (t.eng.done ≠ s.eng.done → (∃ type bank pin, i = .read type bank pin) ∨ i = .ack ∨ i = .acquire ∨ i = .await ∨ i = .capLow ∨ i = .capHigh ∨ i = .check ∨ i = .scale)

/-- R90, R92, R95, R128, R179. Whatever an instruction adds to the record is: a read of OE or DATAIN; a write of SET
or CLR of the single-bit mask, or of OE of a word read with bit ARG_PIN changed; each on the bank in ARG_BANK with
both latches in range and only in HS_HIGH, HS_LOW, RELEASE, AWAIT, CAP_LOW or CAP_HIGH; a request, only in ACQUIRE for
the uncached bank in ARG_BANK; or a wait of 500 in HS_HIGH or 20 in HS_LOW. Bank registers change only in HS_HIGH,
HS_LOW and RELEASE. -/
def Obligations.PortIsUsedOnlyForThePin : Prop :=
  ∀ (i : Instr) (s t : State), exec i s = .next t →
    (∃ new, t.log = new ++ s.log ∧ ∀ ev ∈ new,
      match ev with
      | .read b r _ => s.pinValid b ∧ ((r = .oe ∧ (i = .hsHigh ∨ i = .release)) ∨
          (r = .datain ∧ (i = .await ∨ i = .capLow ∨ i = .capHigh)))
      | .write b r v => s.pinValid b ∧
          ((r = .set ∧ i = .hsHigh ∧ v = 1#32 <<< s.eng.argPin.toNat) ∨
           (r = .clr ∧ i = .hsLow ∧ v = 1#32 <<< s.eng.argPin.toNat) ∨
           (r = .oe ∧ i = .hsHigh ∧ v = s.oeWord &&& ~~~(1#32 <<< s.eng.argPin.toNat)) ∨
           (r = .oe ∧ i = .release ∧ v = s.oeWord ||| (1#32 <<< s.eng.argPin.toNat)))
      | .acqReq b => i = .acquire ∧ s.pinValid b ∧ s.eng.mapped[b] = false
      | .wait n => (i = .hsHigh ∧ n = 500) ∨ (i = .hsLow ∧ n = 20)) ∧
    (t.banks ≠ s.banks → i = .hsHigh ∨ i = .hsLow ∨ i = .release)

/-- R155, R271, R281. From a legal state, a step that raises irq_done ends a read in progress with an outcome and an
idle engine; a step that lowers it serves a reset or a 32-bit write to CMD whose OP is READ or ACK. -/
def Obligations.InterruptRisesAndFallsByRule : Prop :=
  ∀ s t : State, s.Legal → step s = .next t →
    (s.irqDone = false → t.irqDone = true →
      s.eng.busy = true ∧ t.eng.busy = false ∧ t.eng.phase = 0 ∧ t.eng.outcome ≠ .none) ∧
    (s.irqDone = true → t.irqDone = false →
      (∃ n rest, s.inbox = .reset n :: rest) ∨
      (∃ w rest, s.inbox = .host ⟨0, 4, .write w⟩ :: rest ∧ (w &&& 0xFF = 0x01 ∨ w &&& 0xFF = 0x02)))

/-- R37, R202, R230. Running any instruction from two states that differ only in CRIT ends alike: next states that
differ at most in CRIT, or the same fault, or the same refusal. -/
def Obligations.CritChangesNoResult : Prop :=
  ∀ (i : Instr) (s : State) (c : Bool),
    match exec i s, exec i { s with eng := { s.eng with crit := c } } with
    | .next t, .next t' => { t' with eng := { t'.eng with crit := t.eng.crit } } = t
    | .fault f, .fault f' => f = f'
    | .refused r, .refused r' => r = r'
    | _, _ => False

/-- R83, R84. A 32-bit read at an aligned offset answers the state with only the move taken and the reply the
register's value between the two engine steps. -/
def Obligations.HostReadHasNoSideEffect : Prop :=
  ∀ (s : State) (off : BitVec 10) (rest : List Move), s.inbox = .host ⟨off, 4, .read⟩ :: rest → off.toNat % 4 = 0 →
    step s = .next { s with inbox := rest, reply := some (.data (s.eng.readReg off)) }

/-- R81. A host access whose size is not four bytes or whose offset is not a multiple of 4, read or write, answers the
state with only the move taken and a bus error for a reply: no data and no state change. (The model serves such a move
rather than leaving it out, log 11.) -/
def Obligations.OtherAccessGetsABusError : Prop :=
  ∀ (s : State) (off : BitVec 10) (size : Nat) (op : HostOp) (rest : List Move),
    s.inbox = .host ⟨off, size, op⟩ :: rest → size ≠ 4 ∨ off.toNat % 4 ≠ 0 →
    step s = .next { s with inbox := rest, reply := some .busError }

/-- R56, R57. A 32-bit write at an aligned offset other than 0x000 answers the state with only the move taken and the
write acknowledged. -/
def Obligations.WritesElsewhereAreIgnored : Prop :=
  ∀ (s : State) (off : BitVec 10) (w : Word) (rest : List Move), s.inbox = .host ⟨off, 4, .write w⟩ :: rest →
    off.toNat % 4 = 0 → off ≠ 0 → step s = .next { s with inbox := rest, reply := some .written }

/-- R47. The word read at offset 0x004 has BUSY in bit 0, DONE in 1, CRIT in 2, PHASE in [7:4], OUTCOME in [10:8],
FAIL_PHASE in [15:12], PAIR in [21:16], and zeros in bits 3, 11 and [31:22]; it is 0 for the reset engine. The outcome
codes are those of R130: NONE 0, SUCCESS 1, INVALID_ARGUMENT 2, GPIO_UNAVAILABLE 3, DEVICE_ACCESS_DENIED 4,
MAPPING_FAILED 5, TIMEOUT 6, CHECKSUM_MISMATCH 7, and no 3-bit value is without an outcome. -/
def Obligations.StatusWordLayout : Prop :=
  (∀ e : Engine,
    (e.readReg 0x004).getLsbD 0 = e.busy ∧ (e.readReg 0x004).getLsbD 1 = e.done ∧ (e.readReg 0x004).getLsbD 2 = e.crit ∧
    (e.readReg 0x004).getLsbD 3 = false ∧ (e.readReg 0x004).extractLsb' 4 4 = e.phase ∧
    (e.readReg 0x004).extractLsb' 8 3 = e.outcome.code ∧ (e.readReg 0x004).getLsbD 11 = false ∧
    (e.readReg 0x004).extractLsb' 12 4 = e.failPhase ∧
    ((e.readReg 0x004).extractLsb' 16 6).toNat = e.pair.val ∧ (e.readReg 0x004).extractLsb' 22 10 = 0) ∧
  Engine.reset.readReg 0x004 = 0 ∧
  ReadOutcome.none.code = 0 ∧ ReadOutcome.success.code = 1 ∧ ReadOutcome.invalidArgument.code = 2 ∧
  ReadOutcome.gpioUnavailable.code = 3 ∧ ReadOutcome.deviceAccessDenied.code = 4 ∧ ReadOutcome.mappingFailed.code = 5 ∧
  ReadOutcome.timeout.code = 6 ∧ ReadOutcome.checksumMismatch.code = 7 ∧ (∀ c : BitVec 3, ∃ o : ReadOutcome, o.code = c)

/-- R46, R48, R49, R50, R51, R52, R53, R54, R55, R56. CMD reads 0; HUMIDITY, TEMPERATURE, RAW_LO, RAW_HI, THRESHOLD,
AWAIT_COUNT, BANKS and ARGS have each field at its bits; PULSE_i at 0x100 + 4i reads PULSE[i] for every i in 0..81;
and every aligned offset the map does not name reads 0. -/
def Obligations.HostWindowReadsTheRegisters : Prop :=
  ∀ e : Engine,
    e.readReg 0x000 = 0 ∧ (e.readReg 0x008).toNat = e.humNum.toNat ∧
    (e.readReg 0x00C).toNat = e.tempMag.toNat + (if e.tempNeg = true then 2 ^ 15 else 0) ∧
    (e.readReg 0x010).toNat =
      e.raw[0].toNat + 2 ^ 8 * e.raw[1].toNat + 2 ^ 16 * e.raw[2].toNat + 2 ^ 24 * e.raw[3].toNat ∧
    (e.readReg 0x014).toNat = e.raw[4].toNat ∧ e.readReg 0x018 = e.threshold ∧
    (e.readReg 0x01C).toNat = e.awaitCount.toNat ∧
    (∀ n < 32, (e.readReg 0x020).getLsbD n = (if h : n < 4 then e.mapped[n] else false)) ∧
    (e.readReg 0x024).toNat =
      e.argBank.toNat + 2 ^ 8 * e.argPin.toNat + (if e.argType = .b then 2 ^ 16 else 0) ∧
    (∀ i : Fin 82, (e.readReg (BitVec.ofNat 10 (0x100 + 4 * i.val))).toNat = e.pulse[i].toNat) ∧
    (∀ off : BitVec 10, off.toNat % 4 = 0 →
      (0x024 < off.toNat ∧ off.toNat < 0x100) ∨ 0x244 < off.toNat → e.readReg off = 0)

/-- R58, R310, R311, R313. A reset move, with any number of accesses of the interrupted step performed, answers a
state whose engine has every counter, register, flag, latch, cache bit and hidden element at its reset value, whose
outputs irq_done, crit_window and acq_req are 0, in which every offset of the host window reads 0, and which has the
moves after it still to come; no access hangs any more. -/
def Obligations.ResetClearsTheEngine : Prop :=
  ∀ (s : State) (n : Nat) (rest : List Move), s.inbox = .reset n :: rest →
    ∃ t : State, step s = .next t ∧ t.inbox = rest ∧ t.hung = false ∧
      (∀ i : Fin 82, t.eng.pulse[i] = 0) ∧ t.eng.awaitCount = 0 ∧ t.eng.threshold = 0 ∧ (∀ j : Fin 5, t.eng.raw[j] = 0) ∧
      t.eng.resultsZero ∧ t.eng.busy = false ∧ t.eng.outcome = .none ∧ t.eng.failPhase = 0 ∧ t.eng.phase = 0 ∧
      t.eng.pair = 0 ∧ t.eng.argBank = 0 ∧ t.eng.argPin = 0 ∧ t.eng.argType = .a ∧
      (∀ b : Fin 4, t.eng.mapped[b] = false) ∧ t.eng.waitCnt = 0 ∧ t.eng.pollGap = 0 ∧ t.eng.oeHold = 0 ∧
      t.irqDone = false ∧ t.critWindow = false ∧ t.acqReq = false ∧ (∀ off : BitVec 10, t.eng.readReg off = 0)

/-- R184, R185, R186, R310, R312. A reset move with n accesses of the interrupted step performed leaves every bank and
the record as the first n accesses of that step leave them (State.inFlight, the model's form of R310's both cases, log
16): as they were for n = 0 or in a phase that issues none. While an access hangs they stay as they are, since the
hang move has counted its accesses (log 16, log 18). DATAOUT and OE of every bank other than the one in ARG_BANK are
unchanged in every case. In particular, with a valid handle: one access of HS_HIGH or RELEASE leaves OE as read; two
of RELEASE set bit ARG_PIN of it, two of HS_HIGH clear it, and a third sets DATAOUT bit ARG_PIN; one of HS_LOW clears
that bit; a poll changes no bank. -/
def Obligations.ResetLeavesTheBanks : Prop :=
  ∀ (s : State) (n : Nat) (rest : List Move), s.inbox = .reset n :: rest →
    ∃ t : State, step s = .next t ∧
      (s.hung = false → t.banks = (s.inFlight n).banks ∧ t.log = (s.inFlight n).log) ∧
      (n = 0 ∨ accessPhase s.eng.phase = false ∨ s.hung = true → t.banks = s.banks ∧ t.log = s.log) ∧
      (∀ b : Fin 4, s.eng.argBank.toNat ≠ b.val → t.banks[b] = s.banks[b]) ∧
      (∀ b : Fin 4, s.pinValid b → s.hung = false →
        (n = 1 → s.eng.phase = 2 ∨ s.eng.phase = 4 → t.banks[b] = ⟨s.oeWord, s.banks[b].dataout⟩) ∧
        (2 ≤ n → s.eng.phase = 4 → t.banks[b] = ⟨s.oeWord ||| (1#32 <<< s.eng.argPin.toNat), s.banks[b].dataout⟩) ∧
        (n = 2 → s.eng.phase = 2 → t.banks[b] = ⟨s.oeWord &&& ~~~(1#32 <<< s.eng.argPin.toNat), s.banks[b].dataout⟩) ∧
        (3 ≤ n → s.eng.phase = 2 → t.banks[b] = ⟨s.oeWord &&& ~~~(1#32 <<< s.eng.argPin.toNat),
          s.banks[b].dataout ||| (1#32 <<< s.eng.argPin.toNat)⟩) ∧
        (1 ≤ n → s.eng.phase = 3 →
          t.banks[b] = ⟨s.banks[b].oe, s.banks[b].dataout &&& ~~~(1#32 <<< s.eng.argPin.toNat)⟩) ∧
        (s.eng.phase = 5 ∨ s.eng.phase = 6 ∨ s.eng.phase = 7 → t.banks = s.banks))

/-- R90, R95, R100. For every bank and register, the physical address as a number is the base plus the offset of the
table, without wrapping; the base is a multiple of 4096, the offset is below 4096, and the address is a multiple of 4.
-/
def Obligations.BusAddressNeverWraps : Prop :=
  ∀ (b : Fin 4) (r : BankReg), (busAddress b r).toNat = (Config.bankBase b).toNat + r.off.toNat ∧
    (Config.bankBase b).toNat % 4096 = 0 ∧ r.off.toNat < 4096 ∧ (busAddress b r).toNat % 4 = 0 ∧
    r.off.toNat = (match r with | .oe => 0x134 | .datain => 0x138 | .dataout => 0x13C | .clr => 0x190 | .set => 0x194)

/-- R90, R127, R172, R279. When the turn is the sequencer's, because no move waits or the next one is the engine's: a
hung access is stuck (log 18); otherwise a reserved phase code is stuck and never a no-operation; ACQUIRE is stuck
while its request has no answer (log 5); a phase that accesses the pin faults by name when ARG_BANK or ARG_PIN is out
of range (the model's choice for states no read reaches, log 14), and so do the six instructions executed alone; and
every other turn, that is ACQUIRE when it waits for no answer and any other of the twelve phases that accesses no pin
or has a valid one, answers a next state. -/
def Obligations.SequencerStopsOnlyWhereStuck : Prop :=
  (∀ s : State, s.sequencerMoves → s.hung = true → step s = .fault .accessHung) ∧
  (∀ s : State, s.sequencerMoves → s.hung = false → 12 ≤ s.eng.phase.toNat → step s = .fault .reservedPhase) ∧
  (∀ s : State, s.sequencerMoves → s.hung = false → s.eng.phase = 1 → s.awaitsPlatform →
    step s = .fault .platformSilent) ∧
  (∀ s : State, s.sequencerMoves → s.hung = false → accessPhase s.eng.phase = true →
    4 ≤ s.eng.argBank.toNat ∨ 32 ≤ s.eng.argPin.toNat → step s = .fault .noSuchPin) ∧
  (∀ (s : State) (i : Instr), i = .hsHigh ∨ i = .hsLow ∨ i = .release ∨ i = .await ∨ i = .capLow ∨ i = .capHigh →
    4 ≤ s.eng.argBank.toNat ∨ 32 ≤ s.eng.argPin.toNat → exec i s = .fault .noSuchPin) ∧
  (∀ s : State, s.sequencerMoves → s.hung = false → s.eng.phase.toNat < 12 →
    (s.eng.phase = 1 → ¬s.awaitsPlatform) → accessPhase s.eng.phase = false ∨ (∃ b, s.pinValid b) →
    ∃ t, step s = .next t)
end

