-- ==== Sys2Proof/Laws/State.lean ====
section
/-! SUPPORT. What each update does to each field of State, by rfl: the lemmas simp uses in place of unfolding an update.
`eng` is given as a whole record, of which simp takes the field asked for. -/

namespace Sys2Proof.Machine

open Sys2Proof

variable (s : State)

@[simp] theorem State.goto_eng (p : BitVec 4) : (s.goto p).eng = { s.eng with phase := p } := rfl
@[simp] theorem State.goto_banks (p : BitVec 4) : (s.goto p).banks = s.banks := rfl
@[simp] theorem State.goto_log (p : BitVec 4) : (s.goto p).log = s.log := rfl
@[simp] theorem State.goto_hung (p : BitVec 4) : (s.goto p).hung = s.hung := rfl
@[simp] theorem State.goto_reply (p : BitVec 4) : (s.goto p).reply = s.reply := rfl
@[simp] theorem State.goto_inbox (p : BitVec 4) : (s.goto p).inbox = s.inbox := rfl
@[simp] theorem State.goto_datainIn (p : BitVec 4) : (s.goto p).datainIn = s.datainIn := rfl
@[simp] theorem State.goto_oeIn (p : BitVec 4) : (s.goto p).oeIn = s.oeIn := rfl
@[simp] theorem State.goto_acqIn (p : BitVec 4) : (s.goto p).acqIn = s.acqIn := rfl
@[simp] theorem State.goto_draws (p : BitVec 4) : (s.goto p).draws = s.draws := rfl

@[simp] theorem State.bumpPulse_eng (i : Fin 82) : (s.bumpPulse i).eng = { s.eng with pulse := s.eng.pulse.set i (s.eng.pulse[i] + 1) } := rfl
@[simp] theorem State.bumpPulse_banks (i : Fin 82) : (s.bumpPulse i).banks = s.banks := rfl
@[simp] theorem State.bumpPulse_log (i : Fin 82) : (s.bumpPulse i).log = s.log := rfl
@[simp] theorem State.bumpPulse_hung (i : Fin 82) : (s.bumpPulse i).hung = s.hung := rfl
@[simp] theorem State.bumpPulse_reply (i : Fin 82) : (s.bumpPulse i).reply = s.reply := rfl
@[simp] theorem State.bumpPulse_inbox (i : Fin 82) : (s.bumpPulse i).inbox = s.inbox := rfl
@[simp] theorem State.bumpPulse_datainIn (i : Fin 82) : (s.bumpPulse i).datainIn = s.datainIn := rfl
@[simp] theorem State.bumpPulse_oeIn (i : Fin 82) : (s.bumpPulse i).oeIn = s.oeIn := rfl
@[simp] theorem State.bumpPulse_acqIn (i : Fin 82) : (s.bumpPulse i).acqIn = s.acqIn := rfl
@[simp] theorem State.bumpPulse_draws (i : Fin 82) : (s.bumpPulse i).draws = s.draws := rfl

@[simp] theorem State.bumpAwait_eng : (s.bumpAwait).eng = { s.eng with awaitCount := s.eng.awaitCount + 1 } := rfl
@[simp] theorem State.bumpAwait_banks : (s.bumpAwait).banks = s.banks := rfl
@[simp] theorem State.bumpAwait_log : (s.bumpAwait).log = s.log := rfl
@[simp] theorem State.bumpAwait_hung : (s.bumpAwait).hung = s.hung := rfl
@[simp] theorem State.bumpAwait_reply : (s.bumpAwait).reply = s.reply := rfl
@[simp] theorem State.bumpAwait_inbox : (s.bumpAwait).inbox = s.inbox := rfl
@[simp] theorem State.bumpAwait_datainIn : (s.bumpAwait).datainIn = s.datainIn := rfl
@[simp] theorem State.bumpAwait_oeIn : (s.bumpAwait).oeIn = s.oeIn := rfl
@[simp] theorem State.bumpAwait_acqIn : (s.bumpAwait).acqIn = s.acqIn := rfl
@[simp] theorem State.bumpAwait_draws : (s.bumpAwait).draws = s.draws := rfl

@[simp] theorem State.complete_eng (code : ReadOutcome) : (s.complete code).eng = 
      { s.eng with
        crit := false
        outcome := code
        failPhase := if code = .success then 0 else s.eng.phase
        busy := false
        done := true
        phase := Phase.idle } := rfl
@[simp] theorem State.complete_banks (code : ReadOutcome) : (s.complete code).banks = s.banks := rfl
@[simp] theorem State.complete_log (code : ReadOutcome) : (s.complete code).log = s.log := rfl
@[simp] theorem State.complete_hung (code : ReadOutcome) : (s.complete code).hung = s.hung := rfl
@[simp] theorem State.complete_reply (code : ReadOutcome) : (s.complete code).reply = s.reply := rfl
@[simp] theorem State.complete_inbox (code : ReadOutcome) : (s.complete code).inbox = s.inbox := rfl
@[simp] theorem State.complete_datainIn (code : ReadOutcome) : (s.complete code).datainIn = s.datainIn := rfl
@[simp] theorem State.complete_oeIn (code : ReadOutcome) : (s.complete code).oeIn = s.oeIn := rfl
@[simp] theorem State.complete_acqIn (code : ReadOutcome) : (s.complete code).acqIn = s.acqIn := rfl
@[simp] theorem State.complete_draws (code : ReadOutcome) : (s.complete code).draws = s.draws := rfl

@[simp] theorem State.acknowledge_eng : (s.acknowledge).eng = { s.eng with done := false } := rfl
@[simp] theorem State.acknowledge_banks : (s.acknowledge).banks = s.banks := rfl
@[simp] theorem State.acknowledge_log : (s.acknowledge).log = s.log := rfl
@[simp] theorem State.acknowledge_hung : (s.acknowledge).hung = s.hung := rfl
@[simp] theorem State.acknowledge_reply : (s.acknowledge).reply = s.reply := rfl
@[simp] theorem State.acknowledge_inbox : (s.acknowledge).inbox = s.inbox := rfl
@[simp] theorem State.acknowledge_datainIn : (s.acknowledge).datainIn = s.datainIn := rfl
@[simp] theorem State.acknowledge_oeIn : (s.acknowledge).oeIn = s.oeIn := rfl
@[simp] theorem State.acknowledge_acqIn : (s.acknowledge).acqIn = s.acqIn := rfl
@[simp] theorem State.acknowledge_draws : (s.acknowledge).draws = s.draws := rfl

@[simp] theorem State.readOe_eng (b : Fin 4) : (s.readOe b).eng = { s.eng with oeHold := s.oeWord } := rfl
@[simp] theorem State.readOe_banks (b : Fin 4) : (s.readOe b).banks = s.banks.set b (s.banks[b].writeOe s.oeWord) := rfl
@[simp] theorem State.readOe_log (b : Fin 4) : (s.readOe b).log = .read b .oe s.oeWord :: s.log := rfl
@[simp] theorem State.readOe_hung (b : Fin 4) : (s.readOe b).hung = s.hung := rfl
@[simp] theorem State.readOe_reply (b : Fin 4) : (s.readOe b).reply = s.reply := rfl
@[simp] theorem State.readOe_inbox (b : Fin 4) : (s.readOe b).inbox = s.inbox := rfl
@[simp] theorem State.readOe_datainIn (b : Fin 4) : (s.readOe b).datainIn = s.datainIn := rfl
@[simp] theorem State.readOe_oeIn (b : Fin 4) : (s.readOe b).oeIn = s.oeIn.tail := rfl
@[simp] theorem State.readOe_acqIn (b : Fin 4) : (s.readOe b).acqIn = s.acqIn := rfl
@[simp] theorem State.readOe_draws (b : Fin 4) : (s.readOe b).draws = s.draws + 1 := rfl

@[simp] theorem State.writeOe_eng (b : Fin 4) (v : Word) : (s.writeOe b v).eng = s.eng := rfl
@[simp] theorem State.writeOe_banks (b : Fin 4) (v : Word) : (s.writeOe b v).banks = s.banks.set b (s.banks[b].writeOe v) := rfl
@[simp] theorem State.writeOe_log (b : Fin 4) (v : Word) : (s.writeOe b v).log = .write b .oe v :: s.log := rfl
@[simp] theorem State.writeOe_hung (b : Fin 4) (v : Word) : (s.writeOe b v).hung = s.hung := rfl
@[simp] theorem State.writeOe_reply (b : Fin 4) (v : Word) : (s.writeOe b v).reply = s.reply := rfl
@[simp] theorem State.writeOe_inbox (b : Fin 4) (v : Word) : (s.writeOe b v).inbox = s.inbox := rfl
@[simp] theorem State.writeOe_datainIn (b : Fin 4) (v : Word) : (s.writeOe b v).datainIn = s.datainIn := rfl
@[simp] theorem State.writeOe_oeIn (b : Fin 4) (v : Word) : (s.writeOe b v).oeIn = s.oeIn := rfl
@[simp] theorem State.writeOe_acqIn (b : Fin 4) (v : Word) : (s.writeOe b v).acqIn = s.acqIn := rfl
@[simp] theorem State.writeOe_draws (b : Fin 4) (v : Word) : (s.writeOe b v).draws = s.draws := rfl

@[simp] theorem State.writeSet_eng (b : Fin 4) (v : Word) : (s.writeSet b v).eng = s.eng := rfl
@[simp] theorem State.writeSet_banks (b : Fin 4) (v : Word) : (s.writeSet b v).banks = s.banks.set b (s.banks[b].writeSet v) := rfl
@[simp] theorem State.writeSet_log (b : Fin 4) (v : Word) : (s.writeSet b v).log = .write b .set v :: s.log := rfl
@[simp] theorem State.writeSet_hung (b : Fin 4) (v : Word) : (s.writeSet b v).hung = s.hung := rfl
@[simp] theorem State.writeSet_reply (b : Fin 4) (v : Word) : (s.writeSet b v).reply = s.reply := rfl
@[simp] theorem State.writeSet_inbox (b : Fin 4) (v : Word) : (s.writeSet b v).inbox = s.inbox := rfl
@[simp] theorem State.writeSet_datainIn (b : Fin 4) (v : Word) : (s.writeSet b v).datainIn = s.datainIn := rfl
@[simp] theorem State.writeSet_oeIn (b : Fin 4) (v : Word) : (s.writeSet b v).oeIn = s.oeIn := rfl
@[simp] theorem State.writeSet_acqIn (b : Fin 4) (v : Word) : (s.writeSet b v).acqIn = s.acqIn := rfl
@[simp] theorem State.writeSet_draws (b : Fin 4) (v : Word) : (s.writeSet b v).draws = s.draws := rfl

@[simp] theorem State.writeClr_eng (b : Fin 4) (v : Word) : (s.writeClr b v).eng = s.eng := rfl
@[simp] theorem State.writeClr_banks (b : Fin 4) (v : Word) : (s.writeClr b v).banks = s.banks.set b (s.banks[b].writeClr v) := rfl
@[simp] theorem State.writeClr_log (b : Fin 4) (v : Word) : (s.writeClr b v).log = .write b .clr v :: s.log := rfl
@[simp] theorem State.writeClr_hung (b : Fin 4) (v : Word) : (s.writeClr b v).hung = s.hung := rfl
@[simp] theorem State.writeClr_reply (b : Fin 4) (v : Word) : (s.writeClr b v).reply = s.reply := rfl
@[simp] theorem State.writeClr_inbox (b : Fin 4) (v : Word) : (s.writeClr b v).inbox = s.inbox := rfl
@[simp] theorem State.writeClr_datainIn (b : Fin 4) (v : Word) : (s.writeClr b v).datainIn = s.datainIn := rfl
@[simp] theorem State.writeClr_oeIn (b : Fin 4) (v : Word) : (s.writeClr b v).oeIn = s.oeIn := rfl
@[simp] theorem State.writeClr_acqIn (b : Fin 4) (v : Word) : (s.writeClr b v).acqIn = s.acqIn := rfl
@[simp] theorem State.writeClr_draws (b : Fin 4) (v : Word) : (s.writeClr b v).draws = s.draws := rfl

@[simp] theorem State.poll_eng (b : Fin 4) : (s.poll b).eng = { s.eng with pollGap := Config.pollGap s.draws } := rfl
@[simp] theorem State.poll_banks (b : Fin 4) : (s.poll b).banks = s.banks := rfl
@[simp] theorem State.poll_log (b : Fin 4) : (s.poll b).log = .read b .datain s.datainWord :: s.log := rfl
@[simp] theorem State.poll_hung (b : Fin 4) : (s.poll b).hung = s.hung := rfl
@[simp] theorem State.poll_reply (b : Fin 4) : (s.poll b).reply = s.reply := rfl
@[simp] theorem State.poll_inbox (b : Fin 4) : (s.poll b).inbox = s.inbox := rfl
@[simp] theorem State.poll_datainIn (b : Fin 4) : (s.poll b).datainIn = s.datainIn.tail := rfl
@[simp] theorem State.poll_oeIn (b : Fin 4) : (s.poll b).oeIn = s.oeIn := rfl
@[simp] theorem State.poll_acqIn (b : Fin 4) : (s.poll b).acqIn = s.acqIn := rfl
@[simp] theorem State.poll_draws (b : Fin 4) : (s.poll b).draws = s.draws + 1 := rfl

@[simp] theorem State.dropOeHold_eng : (s.dropOeHold).eng = { s.eng with oeHold := Config.oeHold s.draws } := rfl
@[simp] theorem State.dropOeHold_banks : (s.dropOeHold).banks = s.banks := rfl
@[simp] theorem State.dropOeHold_log : (s.dropOeHold).log = s.log := rfl
@[simp] theorem State.dropOeHold_hung : (s.dropOeHold).hung = s.hung := rfl
@[simp] theorem State.dropOeHold_reply : (s.dropOeHold).reply = s.reply := rfl
@[simp] theorem State.dropOeHold_inbox : (s.dropOeHold).inbox = s.inbox := rfl
@[simp] theorem State.dropOeHold_datainIn : (s.dropOeHold).datainIn = s.datainIn := rfl
@[simp] theorem State.dropOeHold_oeIn : (s.dropOeHold).oeIn = s.oeIn := rfl
@[simp] theorem State.dropOeHold_acqIn : (s.dropOeHold).acqIn = s.acqIn := rfl
@[simp] theorem State.dropOeHold_draws : (s.dropOeHold).draws = s.draws + 1 := rfl

@[simp] theorem State.waitMs_eng (n : Nat) : (s.waitMs n).eng = { s.eng with waitCnt := Config.waitCnt s.draws } := rfl
@[simp] theorem State.waitMs_banks (n : Nat) : (s.waitMs n).banks = s.banks := rfl
@[simp] theorem State.waitMs_log (n : Nat) : (s.waitMs n).log = .wait n :: s.log := rfl
@[simp] theorem State.waitMs_hung (n : Nat) : (s.waitMs n).hung = s.hung := rfl
@[simp] theorem State.waitMs_reply (n : Nat) : (s.waitMs n).reply = s.reply := rfl
@[simp] theorem State.waitMs_inbox (n : Nat) : (s.waitMs n).inbox = s.inbox := rfl
@[simp] theorem State.waitMs_datainIn (n : Nat) : (s.waitMs n).datainIn = s.datainIn := rfl
@[simp] theorem State.waitMs_oeIn (n : Nat) : (s.waitMs n).oeIn = s.oeIn := rfl
@[simp] theorem State.waitMs_acqIn (n : Nat) : (s.waitMs n).acqIn = s.acqIn := rfl
@[simp] theorem State.waitMs_draws (n : Nat) : (s.waitMs n).draws = s.draws + 1 := rfl

@[simp] theorem State.tookAcqAnswer_eng : (s.tookAcqAnswer).eng = s.eng := rfl
@[simp] theorem State.tookAcqAnswer_banks : (s.tookAcqAnswer).banks = s.banks := rfl
@[simp] theorem State.tookAcqAnswer_log : (s.tookAcqAnswer).log = s.log := rfl
@[simp] theorem State.tookAcqAnswer_hung : (s.tookAcqAnswer).hung = s.hung := rfl
@[simp] theorem State.tookAcqAnswer_reply : (s.tookAcqAnswer).reply = s.reply := rfl
@[simp] theorem State.tookAcqAnswer_inbox : (s.tookAcqAnswer).inbox = s.inbox := rfl
@[simp] theorem State.tookAcqAnswer_datainIn : (s.tookAcqAnswer).datainIn = s.datainIn := rfl
@[simp] theorem State.tookAcqAnswer_oeIn : (s.tookAcqAnswer).oeIn = s.oeIn := rfl
@[simp] theorem State.tookAcqAnswer_acqIn : (s.tookAcqAnswer).acqIn = s.acqIn.tail := rfl
@[simp] theorem State.tookAcqAnswer_draws : (s.tookAcqAnswer).draws = s.draws + 1 := rfl

@[simp] theorem State.closeWindow_eng : (s.closeWindow).eng = { s.eng with crit := false } := rfl
@[simp] theorem State.closeWindow_banks : (s.closeWindow).banks = s.banks := rfl
@[simp] theorem State.closeWindow_log : (s.closeWindow).log = s.log := rfl
@[simp] theorem State.closeWindow_hung : (s.closeWindow).hung = s.hung := rfl
@[simp] theorem State.closeWindow_reply : (s.closeWindow).reply = s.reply := rfl
@[simp] theorem State.closeWindow_inbox : (s.closeWindow).inbox = s.inbox := rfl
@[simp] theorem State.closeWindow_datainIn : (s.closeWindow).datainIn = s.datainIn := rfl
@[simp] theorem State.closeWindow_oeIn : (s.closeWindow).oeIn = s.oeIn := rfl
@[simp] theorem State.closeWindow_acqIn : (s.closeWindow).acqIn = s.acqIn := rfl
@[simp] theorem State.closeWindow_draws : (s.closeWindow).draws = s.draws := rfl

@[simp] theorem State.startCapture_eng : (s.startCapture).eng = { s.eng with pair := 0, crit := true, phase := Phase.capLow } := rfl
@[simp] theorem State.startCapture_banks : (s.startCapture).banks = s.banks := rfl
@[simp] theorem State.startCapture_log : (s.startCapture).log = s.log := rfl
@[simp] theorem State.startCapture_hung : (s.startCapture).hung = s.hung := rfl
@[simp] theorem State.startCapture_reply : (s.startCapture).reply = s.reply := rfl
@[simp] theorem State.startCapture_inbox : (s.startCapture).inbox = s.inbox := rfl
@[simp] theorem State.startCapture_datainIn : (s.startCapture).datainIn = s.datainIn := rfl
@[simp] theorem State.startCapture_oeIn : (s.startCapture).oeIn = s.oeIn := rfl
@[simp] theorem State.startCapture_acqIn : (s.startCapture).acqIn = s.acqIn := rfl
@[simp] theorem State.startCapture_draws : (s.startCapture).draws = s.draws := rfl

@[simp] theorem State.acceptRead_eng (type : Variant) (bank pin : BitVec 8) : (s.acceptRead type bank pin).eng = 
      { s.eng with
        argBank := bank, argPin := pin, argType := type, pulse := Vector.replicate 82 0, awaitCount := 0
        threshold := 0, raw := Vector.replicate 5 0, humNum := 0, tempMag := 0, tempNeg := false
        outcome := .none, failPhase := 0, pair := 0, crit := false, done := false, busy := true
        phase := Phase.acquire } := rfl
@[simp] theorem State.acceptRead_banks (type : Variant) (bank pin : BitVec 8) : (s.acceptRead type bank pin).banks = s.banks := rfl
@[simp] theorem State.acceptRead_log (type : Variant) (bank pin : BitVec 8) : (s.acceptRead type bank pin).log = s.log := rfl
@[simp] theorem State.acceptRead_hung (type : Variant) (bank pin : BitVec 8) : (s.acceptRead type bank pin).hung = s.hung := rfl
@[simp] theorem State.acceptRead_reply (type : Variant) (bank pin : BitVec 8) : (s.acceptRead type bank pin).reply = s.reply := rfl
@[simp] theorem State.acceptRead_inbox (type : Variant) (bank pin : BitVec 8) : (s.acceptRead type bank pin).inbox = s.inbox := rfl
@[simp] theorem State.acceptRead_datainIn (type : Variant) (bank pin : BitVec 8) : (s.acceptRead type bank pin).datainIn = s.datainIn := rfl
@[simp] theorem State.acceptRead_oeIn (type : Variant) (bank pin : BitVec 8) : (s.acceptRead type bank pin).oeIn = s.oeIn := rfl
@[simp] theorem State.acceptRead_acqIn (type : Variant) (bank pin : BitVec 8) : (s.acceptRead type bank pin).acqIn = s.acqIn := rfl
@[simp] theorem State.acceptRead_draws (type : Variant) (bank pin : BitVec 8) : (s.acceptRead type bank pin).draws = s.draws := rfl

@[simp] theorem State.scaleA_eng : (s.scaleA).eng = 
      { s.eng with
        humNum := s.eng.raw[0].setWidth 16
        tempMag := s.eng.raw[2].setWidth 15
        tempNeg := false } := rfl
@[simp] theorem State.scaleA_banks : (s.scaleA).banks = s.banks := rfl
@[simp] theorem State.scaleA_log : (s.scaleA).log = s.log := rfl
@[simp] theorem State.scaleA_hung : (s.scaleA).hung = s.hung := rfl
@[simp] theorem State.scaleA_reply : (s.scaleA).reply = s.reply := rfl
@[simp] theorem State.scaleA_inbox : (s.scaleA).inbox = s.inbox := rfl
@[simp] theorem State.scaleA_datainIn : (s.scaleA).datainIn = s.datainIn := rfl
@[simp] theorem State.scaleA_oeIn : (s.scaleA).oeIn = s.oeIn := rfl
@[simp] theorem State.scaleA_acqIn : (s.scaleA).acqIn = s.acqIn := rfl
@[simp] theorem State.scaleA_draws : (s.scaleA).draws = s.draws := rfl

@[simp] theorem State.scaleB_eng : (s.scaleB).eng = 
      { s.eng with
        humNum := s.eng.raw[0].setWidth 16 * 256 + s.eng.raw[1].setWidth 16
        tempMag := (s.eng.raw[2] &&& 0x7F).setWidth 15 * 256 + s.eng.raw[3].setWidth 15
        tempNeg := s.eng.raw[2].getLsbD 7 } := rfl
@[simp] theorem State.scaleB_banks : (s.scaleB).banks = s.banks := rfl
@[simp] theorem State.scaleB_log : (s.scaleB).log = s.log := rfl
@[simp] theorem State.scaleB_hung : (s.scaleB).hung = s.hung := rfl
@[simp] theorem State.scaleB_reply : (s.scaleB).reply = s.reply := rfl
@[simp] theorem State.scaleB_inbox : (s.scaleB).inbox = s.inbox := rfl
@[simp] theorem State.scaleB_datainIn : (s.scaleB).datainIn = s.datainIn := rfl
@[simp] theorem State.scaleB_oeIn : (s.scaleB).oeIn = s.oeIn := rfl
@[simp] theorem State.scaleB_acqIn : (s.scaleB).acqIn = s.acqIn := rfl
@[simp] theorem State.scaleB_draws : (s.scaleB).draws = s.draws := rfl

@[simp] theorem State.othersAct_eng (b : Fin 4) (oe dataout : Word) : (s.othersAct b oe dataout).eng = s.eng := rfl
@[simp] theorem State.othersAct_banks (b : Fin 4) (oe dataout : Word) : (s.othersAct b oe dataout).banks = s.banks.set b ⟨oe, dataout⟩ := rfl
@[simp] theorem State.othersAct_log (b : Fin 4) (oe dataout : Word) : (s.othersAct b oe dataout).log = s.log := rfl
@[simp] theorem State.othersAct_hung (b : Fin 4) (oe dataout : Word) : (s.othersAct b oe dataout).hung = s.hung := rfl
@[simp] theorem State.othersAct_reply (b : Fin 4) (oe dataout : Word) : (s.othersAct b oe dataout).reply = s.reply := rfl
@[simp] theorem State.othersAct_inbox (b : Fin 4) (oe dataout : Word) : (s.othersAct b oe dataout).inbox = s.inbox := rfl
@[simp] theorem State.othersAct_datainIn (b : Fin 4) (oe dataout : Word) : (s.othersAct b oe dataout).datainIn = s.datainIn := rfl
@[simp] theorem State.othersAct_oeIn (b : Fin 4) (oe dataout : Word) : (s.othersAct b oe dataout).oeIn = s.oeIn := rfl
@[simp] theorem State.othersAct_acqIn (b : Fin 4) (oe dataout : Word) : (s.othersAct b oe dataout).acqIn = s.acqIn := rfl
@[simp] theorem State.othersAct_draws (b : Fin 4) (oe dataout : Word) : (s.othersAct b oe dataout).draws = s.draws := rfl

end Sys2Proof.Machine
end

