-- ==== Sys2Proof/Laws/Ops.lean ====
section
/-! SUPPORT. What each shared operation can do, said once: the pin handle, the pin primitives, the handshake, the
counting loops, the end of a pair, whose turn it is. Later proofs cite these instead of unfolding the operation. -/

namespace Sys2Proof.Machine

open Sys2Proof

/-! ### The pin handle -/

/-- The handle names a bank exactly when both latches are in range (R90, R183). -/
theorem pinBank_eq_some_iff (s : State) (b : Fin 4) :
    s.pinBank = some b ↔ s.eng.argBank.toNat = b.val ∧ s.eng.argPin.toNat < 32 := by
  unfold State.pinBank
  split
  · split
    · simp only [Option.some.injEq, Fin.ext_iff]
      omega
    · simp; omega
  · simp; omega

/-- The handle names no bank exactly when a latch is out of range (R183). -/
theorem pinBank_eq_none_iff (s : State) :
    s.pinBank = none ↔ 4 ≤ s.eng.argBank.toNat ∨ 32 ≤ s.eng.argPin.toNat := by
  unfold State.pinBank
  split
  · split
    · simp; omega
    · simp; omega
  · simp; omega

/-- The handle depends on the latches only. -/
theorem pinBank_congr {s t : State} (hb : t.eng.argBank = s.eng.argBank) (hp : t.eng.argPin = s.eng.argPin) :
    t.pinBank = s.pinBank := by
  simp only [State.pinBank, hb, hp]

/-! ### The pin primitives -/

/-- DIR_OUT: the bank's OE is the word read with bit ARG_PIN clear; two accesses; OE_HOLD is left unspecified (R174). -/
theorem dirOut_spec (s : State) (b : Fin 4) :
    (s.dirOut b).eng = { s.eng with oeHold := Config.oeHold (s.draws + 1) } ∧
    (s.dirOut b).banks = s.banks.set b ⟨s.oeWord &&& ~~~s.pinMask, s.banks[b].dataout⟩ ∧
    (s.dirOut b).log = .write b .oe (s.oeWord &&& ~~~s.pinMask) :: .read b .oe s.oeWord :: s.log ∧
    (s.dirOut b).oeIn = s.oeIn.tail ∧ (s.dirOut b).draws = s.draws + 2 := by
  refine ⟨rfl, ?_, rfl, rfl, rfl⟩
  simp [State.dirOut, State.pinMask, GpioBank.writeOe]

/-- DIR_IN: the bank's OE is the word read with bit ARG_PIN set (R175). -/
theorem dirIn_spec (s : State) (b : Fin 4) :
    (s.dirIn b).eng = { s.eng with oeHold := Config.oeHold (s.draws + 1) } ∧
    (s.dirIn b).banks = s.banks.set b ⟨s.oeWord ||| s.pinMask, s.banks[b].dataout⟩ ∧
    (s.dirIn b).log = .write b .oe (s.oeWord ||| s.pinMask) :: .read b .oe s.oeWord :: s.log ∧
    (s.dirIn b).oeIn = s.oeIn.tail ∧ (s.dirIn b).draws = s.draws + 2 := by
  refine ⟨rfl, ?_, rfl, rfl, rfl⟩
  simp [State.dirIn, State.pinMask, GpioBank.writeOe]

/-- What a direction change leaves alone beside the bank, the log and the draws. -/
theorem dir_frame (s : State) (b : Fin 4) :
    (s.dirOut b).hung = s.hung ∧ (s.dirOut b).reply = s.reply ∧ (s.dirOut b).inbox = s.inbox ∧
    (s.dirOut b).datainIn = s.datainIn ∧ (s.dirOut b).acqIn = s.acqIn ∧
    (s.dirIn b).hung = s.hung ∧ (s.dirIn b).reply = s.reply ∧ (s.dirIn b).inbox = s.inbox ∧
    (s.dirIn b).datainIn = s.datainIn ∧ (s.dirIn b).acqIn = s.acqIn :=
  ⟨rfl, rfl, rfl, rfl, rfl, rfl, rfl, rfl, rfl, rfl⟩

/-- LEVEL_HIGH sets its latch bit only (R176, R96). -/
theorem levelHigh_spec (s : State) (b : Fin 4) :
    (s.levelHigh b).eng = s.eng ∧
    (s.levelHigh b).banks = s.banks.set b ⟨s.banks[b].oe, s.banks[b].dataout ||| s.pinMask⟩ ∧
    (s.levelHigh b).log = .write b .set s.pinMask :: s.log ∧ (s.levelHigh b).draws = s.draws :=
  ⟨rfl, rfl, rfl, rfl⟩

/-- LEVEL_LOW clears its latch bit only (R176, R96). -/
theorem levelLow_spec (s : State) (b : Fin 4) :
    (s.levelLow b).eng = s.eng ∧
    (s.levelLow b).banks = s.banks.set b ⟨s.banks[b].oe, s.banks[b].dataout &&& ~~~s.pinMask⟩ ∧
    (s.levelLow b).log = .write b .clr s.pinMask :: s.log ∧ (s.levelLow b).draws = s.draws :=
  ⟨rfl, rfl, rfl, rfl⟩

/-- Bit `n` of the mask is the pin's own bit and no other. -/
theorem pinMask_getLsbD (s : State) (n : Nat) (hn : n < 32) :
    s.pinMask.getLsbD n = decide (n = s.eng.argPin.toNat) := by
  simp only [State.pinMask, BitVec.getLsbD_shiftLeft, hn, decide_true, Bool.true_and]
  by_cases h : n < s.eng.argPin.toNat
  · simp [h]; omega
  · simp only [h, decide_false, Bool.not_false, Bool.true_and, BitVec.getLsbD_one]
    by_cases h' : n = s.eng.argPin.toNat
    · simp [h']
    · simp [h']; omega

/-! ### Acquisition -/

/-- The request leaves the pending bit set and touches nothing but it and the log (R170). -/
theorem requestBank_spec (s : State) (b : Fin 4) :
    (s.requestBank b).eng = { s.eng with acqPending := true } ∧
    (s.requestBank b).log = (if s.eng.acqPending then s.log else .acqReq b :: s.log) ∧
    (s.requestBank b).banks = s.banks ∧ (s.requestBank b).hung = s.hung ∧ (s.requestBank b).reply = s.reply ∧
    (s.requestBank b).inbox = s.inbox ∧ (s.requestBank b).datainIn = s.datainIn ∧ (s.requestBank b).oeIn = s.oeIn ∧
    (s.requestBank b).acqIn = s.acqIn ∧ (s.requestBank b).draws = s.draws := by
  by_cases h : s.eng.acqPending = true
  · have e : s.requestBank b = s := if_pos h
    rw [e, if_pos h]
    refine ⟨?_, rfl, rfl, rfl, rfl, rfl, rfl, rfl, rfl, rfl⟩
    conv => lhs; rw [show s.eng = { s.eng with acqPending := s.eng.acqPending } from rfl, h]
  · have e : s.requestBank b =
        { s with eng := { s.eng with acqPending := true }, log := .acqReq b :: s.log } := if_neg h
    rw [e, if_neg h]
    exact ⟨rfl, rfl, rfl, rfl, rfl, rfl, rfl, rfl, rfl, rfl⟩

/-- Asking does not change what the platform answers. -/
theorem requestBank_acqAnswer (s : State) (b : Fin 4) : (s.requestBank b).acqAnswer = s.acqAnswer := by
  obtain ⟨-, -, -, -, -, -, -, -, hi, hd⟩ := requestBank_spec s b
  simp only [State.acqAnswer, hi, hd]

/-- An answer is missing exactly when a request stands and the platform has given none (R172). -/
theorem answerMissing_iff (s : State) : s.answerMissing = true ↔ s.eng.acqPending = true ∧ s.acqAnswer = none := by
  simp [State.answerMissing]

/-- A request just raised, or one that has its answer, misses none. -/
theorem answerMissing_eq_false_iff (s : State) :
    s.answerMissing = false ↔ (s.eng.acqPending = false ∨ s.acqAnswer ≠ none) := by
  cases hp : s.eng.acqPending <;> cases ha : s.acqAnswer <;> simp [State.answerMissing, hp, ha]

/-- What the engine is after an uncached acquisition step: still waiting, or past ACQUIRE, or complete (R170, R172, R183). -/
theorem acquireBank_eng (s : State) (b : Fin 4) :
    (s.acquireBank b).eng =
      match s.acqAnswer with
      | none => { s.eng with acqPending := true }
      | some .ok => { s.eng with acqPending := false, mapped := s.eng.mapped.set b true, phase := Phase.hsHigh }
      | some .denied => { (s.complete .deviceAccessDenied).eng with acqPending := false }
      | some .mapFailed => { (s.complete .mappingFailed).eng with acqPending := false }
      | some .unavailable => { (s.complete .gpioUnavailable).eng with acqPending := false } := by
  simp only [State.acquireBank, requestBank_acqAnswer]
  obtain ⟨he, -⟩ := requestBank_spec s b
  cases s.acqAnswer with
  | none => simpa using he
  | some r => cases r <;> simp [State.settleAcquisition, he]

/-- An acquisition step makes no access: banks, replies, moves and sensor words are kept, and one answer is drawn. -/
theorem acquireBank_frame (s : State) (b : Fin 4) :
    (s.acquireBank b).banks = s.banks ∧ (s.acquireBank b).hung = s.hung ∧ (s.acquireBank b).reply = s.reply ∧
    (s.acquireBank b).inbox = s.inbox ∧ (s.acquireBank b).datainIn = s.datainIn ∧ (s.acquireBank b).oeIn = s.oeIn ∧
    (s.acquireBank b).acqIn = s.acqIn.tail ∧ (s.acquireBank b).draws = s.draws + 1 ∧
    (s.acquireBank b).log = (if s.eng.acqPending then s.log else .acqReq b :: s.log) := by
  simp only [State.acquireBank, requestBank_acqAnswer]
  obtain ⟨-, hl, hb, hh, hr, hx, hd, ho, ha, hn⟩ := requestBank_spec s b
  cases s.acqAnswer with
  | none => simp [hl, hb, hh, hr, hx, hd, ho, ha, hn]
  | some r => cases r <;> simp [State.settleAcquisition, hl, hb, hh, hr, hx, hd, ho, ha, hn]

/-! ### Counting -/

/-- Counting a pulse at the ceiling: the counter goes up by one, the window closes and the read completes with TIMEOUT in
the same step (R204, R206, R208). -/
theorem countPulse_eng_ceiling (s : State) (i : Fin 82) (h : Config.ceil ≤ (s.eng.pulse[i] + 1).toNat) :
    (s.countPulse i).eng =
      { s.eng with
        pulse := s.eng.pulse.set i (s.eng.pulse[i] + 1), crit := false, outcome := .timeout
        failPhase := s.eng.phase, busy := false, done := true, phase := Phase.idle } := by
  have e : s.countPulse i = ((s.bumpPulse i).closeWindow).complete .timeout := by
    simp only [State.countPulse, State.bumpPulse_eng, Fin.getElem_fin, Vector.getElem_set_self]
    exact if_pos h
  rw [e]
  simp

/-- Counting a pulse below the ceiling: the counter goes up by one (R204, R206). -/
theorem countPulse_eng_below (s : State) (i : Fin 82) (h : ¬Config.ceil ≤ (s.eng.pulse[i] + 1).toNat) :
    (s.countPulse i).eng = { s.eng with pulse := s.eng.pulse.set i (s.eng.pulse[i] + 1) } := by
  have e : s.countPulse i = s.bumpPulse i := by
    simp only [State.countPulse, State.bumpPulse_eng, Fin.getElem_fin, Vector.getElem_set_self]
    exact if_neg h
  rw [e]
  rfl

/-- Counting a pulse touches the engine only. -/
theorem countPulse_frame (s : State) (i : Fin 82) :
    (s.countPulse i).banks = s.banks ∧ (s.countPulse i).log = s.log ∧ (s.countPulse i).hung = s.hung ∧
    (s.countPulse i).reply = s.reply ∧ (s.countPulse i).inbox = s.inbox ∧ (s.countPulse i).datainIn = s.datainIn ∧
    (s.countPulse i).oeIn = s.oeIn ∧ (s.countPulse i).acqIn = s.acqIn ∧ (s.countPulse i).draws = s.draws := by
  simp only [State.countPulse]
  split <;> simp

/-- Counting an AWAIT poll at the ceiling: the read completes with TIMEOUT in the same step (R201, R208). -/
theorem countAwait_eng_ceiling (s : State) (h : Config.ceil ≤ (s.eng.awaitCount + 1).toNat) :
    s.countAwait.eng =
      { s.eng with
        awaitCount := s.eng.awaitCount + 1, crit := false, outcome := .timeout
        failPhase := s.eng.phase, busy := false, done := true, phase := Phase.idle } := by
  have e : s.countAwait = s.bumpAwait.complete .timeout := if_pos h
  rw [e]
  simp

/-- Counting an AWAIT poll below the ceiling (R201). -/
theorem countAwait_eng_below (s : State) (h : ¬Config.ceil ≤ (s.eng.awaitCount + 1).toNat) :
    s.countAwait.eng = { s.eng with awaitCount := s.eng.awaitCount + 1 } := by
  have e : s.countAwait = s.bumpAwait := if_neg h
  rw [e]
  rfl

/-- Counting an AWAIT poll touches the engine only. -/
theorem countAwait_frame (s : State) :
    s.countAwait.banks = s.banks ∧ s.countAwait.log = s.log ∧ s.countAwait.hung = s.hung ∧
    s.countAwait.reply = s.reply ∧ s.countAwait.inbox = s.inbox ∧ s.countAwait.datainIn = s.datainIn ∧
    s.countAwait.oeIn = s.oeIn ∧ s.countAwait.acqIn = s.acqIn ∧ s.countAwait.draws = s.draws := by
  simp only [State.countAwait]
  split <;> simp

/-- The end of a pair before the last: pair k + 1 in CAP_LOW (R206). -/
theorem endPair_eng_next (s : State) (h : s.eng.pair.val < 40) :
    s.endPair.eng = { s.eng with pair := ⟨s.eng.pair.val + 1, by omega⟩, phase := Phase.capLow } := by
  have e : s.endPair = { s with eng := { s.eng with pair := ⟨s.eng.pair.val + 1, by omega⟩, phase := Phase.capLow } } :=
    dif_pos h
  rw [e]

/-- The end of pair 40: the window closes and THRESH follows (R206). -/
theorem endPair_eng_last (s : State) (h : ¬s.eng.pair.val < 40) :
    s.endPair.eng = { s.eng with crit := false, phase := Phase.thresh } := by
  have e : s.endPair = s.closeWindow.goto Phase.thresh := dif_neg h
  rw [e]
  rfl

/-- The end of a pair touches the engine only. -/
theorem endPair_frame (s : State) :
    s.endPair.banks = s.banks ∧ s.endPair.log = s.log ∧ s.endPair.hung = s.hung ∧
    s.endPair.reply = s.reply ∧ s.endPair.inbox = s.inbox ∧ s.endPair.datainIn = s.datainIn ∧
    s.endPair.oeIn = s.oeIn ∧ s.endPair.acqIn = s.acqIn ∧ s.endPair.draws = s.draws := by
  simp only [State.endPair]
  split <;> simp

/-! ### Whose turn it is -/

/-- What an interrupted step of the sequencer can have done: only hidden registers of the engine change, and the latches
of no bank but the pin's (R310). -/
theorem inFlight_eng (n : Nat) (s : State) :
    ∃ gap hold, (s.inFlight n).eng = { s.eng with pollGap := gap, oeHold := hold } := by
  unfold State.inFlight
  split
  · exact ⟨_, _, rfl⟩
  · repeat' split
    all_goals exact ⟨_, _, rfl⟩

/-- An interrupted step leaves the moves to come and the replies alone. -/
theorem inFlight_frame (n : Nat) (s : State) :
    (s.inFlight n).inbox = s.inbox ∧ (s.inFlight n).reply = s.reply ∧ (s.inFlight n).hung = s.hung ∧
    (s.inFlight n).acqIn = s.acqIn := by
  unfold State.inFlight
  split
  · exact ⟨rfl, rfl, rfl, rfl⟩
  · repeat' split
    all_goals exact ⟨rfl, rfl, rfl, rfl⟩

/-- An interrupted step, by phase and number of accesses performed, for a valid handle (R310, R312; log 16). -/
theorem inFlight_of_pinBank {s : State} {b : Fin 4} (n : Nat) (h : s.pinBank = some b) :
    s.inFlight n =
      if n = 0 then s
      else if s.eng.phase = Phase.hsHigh then
        (if n = 1 then s.readOe b else if n = 2 then s.dirOut b else (s.dirOut b).levelHigh b)
      else if s.eng.phase = Phase.hsLow then s.levelLow b
      else if s.eng.phase = Phase.release then (if n = 1 then s.readOe b else s.dirIn b)
      else if s.eng.phase = Phase.await ∨ s.eng.phase = Phase.capLow ∨ s.eng.phase = Phase.capHigh then s.poll b
      else s := by
  unfold State.inFlight
  simp only [h]

/-- What an interrupted step has done does not depend on the moves to come. -/
theorem inFlight_with_inbox (s : State) (n : Nat) (rest : List Move) :
    ({ s with inbox := rest } : State).inFlight n = { s.inFlight n with inbox := rest } := by
  have hp : ({ s with inbox := rest } : State).pinBank = s.pinBank := rfl
  cases h : s.pinBank with
  | none => simp only [State.inFlight, hp, h]
  | some b =>
    rw [inFlight_of_pinBank n h, inFlight_of_pinBank n (hp.trans h)]
    show (if n = 0 then _ else if s.eng.phase = _ then _ else _) = _
    split_ifs <;> rfl

/-- The sequencer's turn, when it has one: an instruction that PHASE names, on the state as it is. -/
theorem engineTurn_eq_run_iff (s t : State) (i : Instr) :
    engineTurn s = .run i t ↔ s.hung = false ∧ decodePhase s.eng.phase = .ok i ∧ t = s := by
  unfold engineTurn
  cases hh : s.hung <;> simp
  cases hd : decodePhase s.eng.phase <;> simp [eq_comm]

/-- The sequencer never settles a turn by itself. -/
theorem engineTurn_ne_settled (s t : State) : engineTurn s ≠ .settled t := by
  unfold engineTurn
  cases s.hung <;> simp
  cases decodePhase s.eng.phase <;> simp

/-- What a host access can lead to: a command executed with the reply noted, or the reply alone (R81, R83, R84, R156). -/
theorem hostTurn_cases (a : HostAccess) (s : State) :
    (∃ w i, a.admitted = true ∧ a.op = .write w ∧ a.off = 0 ∧ decodeCommand w = .ok i ∧
      hostTurn a s = .run i { s with reply := some .written }) ∨
    (∃ r, hostTurn a s = .settled { s with reply := some r }) := by
  unfold hostTurn
  by_cases ha : a.admitted = true
  · rw [if_pos ha]
    cases ho : a.op with
    | read => exact .inr ⟨_, rfl⟩
    | write w =>
      by_cases hz : a.off = 0
      · cases hd : decodeCommand w with
        | ok i => exact .inl ⟨w, i, ha, rfl, hz, hd, by simp only [hostWrite, if_pos hz, hd]⟩
        | error e => exact .inr ⟨.written, by simp only [hostWrite, if_pos hz, hd]⟩
      · exact .inr ⟨.written, by simp only [hostWrite, if_neg hz]⟩
  · exact .inr ⟨_, if_neg ha⟩

/-- Every way a step can answer a next state: a micro-operation of the sequencer, a command of the host, a host access
that only gets its reply, a reset, a hang, or other masters. `u` is the state with the move taken from the inbox. -/
theorem step_cases {s t : State} (h : step s = .next t) :
    ∃ u : State, (∃ rest, u = { s with inbox := rest }) ∧
      ((∃ i, u.hung = false ∧ decodePhase u.eng.phase = .ok i ∧ exec i u = .next t) ∨
       (∃ w i, decodeCommand w = .ok i ∧ exec i { u with reply := some .written } = .next t) ∨
       (∃ r, t = { u with reply := some r }) ∨
       (∃ n, t = u.resetEvent n) ∨ (∃ n, t = u.hangEvent n) ∨ (∃ b oe d, t = u.othersAct b oe d)) := by
  have key : ∀ u : State, engineTurn u = fetch s → 
      (∃ i, u.hung = false ∧ decodePhase u.eng.phase = .ok i ∧ exec i u = .next t) := by
    intro u hu
    simp only [step, ← hu] at h
    cases he : engineTurn u with
    | run i v =>
      obtain ⟨hh, hd, rfl⟩ := (engineTurn_eq_run_iff u v i).1 he
      exact ⟨i, hh, hd, by simpa [he] using h⟩
    | settled v => exact absurd he (engineTurn_ne_settled u v)
    | stuck f => simp [he] at h
  cases hi : s.inbox with
  | nil => exact ⟨s, ⟨[], by rw [← hi]⟩, .inl (key s (by simp [fetch, hi]))⟩
  | cons m rest =>
    refine ⟨{ s with inbox := rest }, ⟨rest, rfl⟩, ?_⟩
    have hf : fetch s = turn m { s with inbox := rest } := by simp [fetch, hi]
    cases m with
    | engine => exact .inl (key _ (by simp [hf, turn]))
    | host a =>
      simp only [step, hf, turn] at h
      obtain ⟨w, i, -, -, -, hd, he⟩ | ⟨r, he⟩ := hostTurn_cases a { s with inbox := rest }
      · exact .inr (.inl ⟨w, i, hd, by simpa [he] using h⟩)
      · refine .inr (.inr (.inl ⟨r, ?_⟩))
        simp only [he, Host.Outcome.next.injEq] at h
        exact h.symm
    | reset n =>
      simp only [step, hf, turn, Host.Outcome.next.injEq] at h
      exact .inr (.inr (.inr (.inl ⟨n, h.symm⟩)))
    | hang n =>
      simp only [step, hf, turn, Host.Outcome.next.injEq] at h
      exact .inr (.inr (.inr (.inr (.inl ⟨n, h.symm⟩))))
    | others b oe d =>
      simp only [step, hf, turn, Host.Outcome.next.injEq] at h
      exact .inr (.inr (.inr (.inr (.inr ⟨b, oe, d, h.symm⟩))))

end Sys2Proof.Machine
end

