-- ==== Sys2Proof/Laws/Exec.lean ====
section
/-! SUPPORT. What each instruction answers, case by case: which shared operations its next state is made of, and where it
stops. Later proofs cite these instead of unfolding a meaning. -/

namespace Sys2Proof.Machine

open Sys2Proof

variable {s : State} {b : Fin 4}

theorem exec_read_accepted (type : Variant) (bank pin : Nat) (h : s.eng.busy = false) :
    exec (.read type bank pin) s = .next (s.acceptRead type (argByte bank) (argByte pin)) := by
  simp [exec, execRead, h]

theorem exec_read_ignored (type : Variant) (bank pin : Nat) (h : s.eng.busy = true) :
    exec (.read type bank pin) s = .next s := by
  simp [exec, execRead, h]

theorem exec_ack_idle (h : s.eng.busy = false) : exec .ack s = .next s.acknowledge := by
  simp [exec, execAck, h]

theorem exec_ack_busy (h : s.eng.busy = true) : exec .ack s = .next s := by
  simp [exec, execAck, h]

theorem exec_acquire_invalid (h : s.pinBank = none) : exec .acquire s = .next (s.complete .invalidArgument) := by
  simp only [exec, execAcquire, h]

theorem exec_acquire_cached (h : s.pinBank = some b) (hm : s.eng.mapped[b] = true) :
    exec .acquire s = .next (s.goto Phase.hsHigh) := by
  simp only [exec, execAcquire, h, hm, if_true]

theorem exec_acquire_asks (h : s.pinBank = some b) (hm : s.eng.mapped[b] = false) (hw : s.answerMissing = false) :
    exec .acquire s = .next (s.acquireBank b) := by
  simp only [exec, execAcquire, h, hm, hw]
  rfl

/-- While its request has no answer ACQUIRE has no step (R172; log 5). -/
theorem exec_acquire_waits (h : s.pinBank = some b) (hm : s.eng.mapped[b] = false) (hw : s.answerMissing = true) :
    exec .acquire s = .fault .platformSilent := by
  simp only [exec, execAcquire, h, hm, hw]
  rfl

theorem exec_hsHigh (h : s.pinBank = some b) :
    exec .hsHigh s = .next ((((s.dirOut b).levelHigh b).waitMs Config.hsHighMs).goto Phase.hsLow) := by
  simp only [exec, execHsHigh, h]

theorem exec_hsLow (h : s.pinBank = some b) :
    exec .hsLow s = .next (((s.levelLow b).waitMs Config.hsLowMs).goto Phase.release) := by
  simp only [exec, execHsLow, h]

theorem exec_release (h : s.pinBank = some b) : exec .release s = .next ((s.dirIn b).goto Phase.await) := by
  simp only [exec, execRelease, h]

theorem exec_await_high (h : s.pinBank = some b) (hl : s.datainWord.getLsbD s.eng.argPin.toNat = true) :
    exec .await s = .next (s.poll b).countAwait := by
  simp only [exec, execAwait, h, State.nextLevel, pinLevel, hl, if_true]

theorem exec_await_low (h : s.pinBank = some b) (hl : s.datainWord.getLsbD s.eng.argPin.toNat = false) :
    exec .await s = .next (s.poll b).startCapture := by
  simp only [exec, execAwait, h, State.nextLevel, pinLevel, hl]
  rfl

theorem exec_capLow_low (h : s.pinBank = some b) (hl : s.datainWord.getLsbD s.eng.argPin.toNat = false) :
    exec .capLow s = .next ((s.poll b).countPulse (lowSlot s.eng.pair)) := by
  simp only [exec, execCapLow, h, State.nextLevel, pinLevel, hl]
  rfl

theorem exec_capLow_high (h : s.pinBank = some b) (hl : s.datainWord.getLsbD s.eng.argPin.toNat = true) :
    exec .capLow s = .next ((s.poll b).goto Phase.capHigh) := by
  simp only [exec, execCapLow, h, State.nextLevel, pinLevel, hl, if_true]

theorem exec_capHigh_high (h : s.pinBank = some b) (hl : s.datainWord.getLsbD s.eng.argPin.toNat = true) :
    exec .capHigh s = .next ((s.poll b).countPulse (highSlot s.eng.pair)) := by
  simp only [exec, execCapHigh, h, State.nextLevel, pinLevel, hl, if_true]

theorem exec_capHigh_low (h : s.pinBank = some b) (hl : s.datainWord.getLsbD s.eng.argPin.toNat = false) :
    exec .capHigh s = .next (s.poll b).endPair := by
  simp only [exec, execCapHigh, h, State.nextLevel, pinLevel, hl]
  rfl

theorem exec_check_match (h : s.eng.raw[4] = s.eng.checksum) : exec .check s = .next (s.goto Phase.scale) := by
  simp only [exec, execCheck, h, ne_eq, not_true_eq_false, if_false]

theorem exec_check_mismatch (h : s.eng.raw[4] ≠ s.eng.checksum) :
    exec .check s = .next (s.complete .checksumMismatch) := by
  simp only [exec, execCheck]
  rw [if_pos h]

theorem exec_scale_a (h : s.eng.argType = .a) : exec .scale s = .next (s.scaleA.complete .success) := by
  simp only [exec, execScale, h]

theorem exec_scale_b (h : s.eng.argType = .b) : exec .scale s = .next (s.scaleB.complete .success) := by
  simp only [exec, execScale, h]

/-- A pin phase stops, by name, exactly where the latches name no pin (R90; log 14). -/
theorem exec_pin_phase_fault (i : Instr)
    (hi : i = .hsHigh ∨ i = .hsLow ∨ i = .release ∨ i = .await ∨ i = .capLow ∨ i = .capHigh) (h : s.pinBank = none) :
    exec i s = .fault .noSuchPin := by
  rcases hi with rfl | rfl | rfl | rfl | rfl | rfl
  · simp only [exec, execHsHigh, h]
  · simp only [exec, execHsLow, h]
  · simp only [exec, execRelease, h]
  · simp only [exec, execAwait, h]
  · simp only [exec, execCapLow, h]
  · simp only [exec, execCapHigh, h]

end Sys2Proof.Machine
end

