-- ==== Sys2Proof/Laws/PerInstr.lean ====
section
/-! SUPPORT. A law of the instructions as syntax, one lemma per constructor: the encoded word of a well-formed instruction
carries its own row's pattern of spec/opcode_table.json, in the row's form. -/

namespace Sys2Proof.Laws.TableRow

open Sys2Proof

/-- The encoded word belongs to the instruction's row, and has as many bytes as the row's form. -/
def Statement (i : Instr) : Prop :=
  i.wellFormed = true →
    encodeWord i &&& i.row.mask = i.row.pattern ∧ (encode i).length = (match i.form with | .command => 4 | .phase => 1)

/-- The opcode byte of a command word is its lowest byte. -/
theorem commandWord_op (type : Variant) (bank pin op : Byte) :
    commandWord type bank pin op &&& 0xFF = op.setWidth 32 := by
  have mask : ∀ n < 32, (0xFF : Word).getLsbD n = decide (n < 8) := by decide
  apply BitVec.eq_of_getLsbD_eq
  intro n hn
  rw [BitVec.getLsbD_and, mask n hn, BitVec.getLsbD_setWidth]
  by_cases h : n < 8
  · simp only [commandWord, BitVec.getLsbD_append, h, hn, if_true, decide_true, Bool.and_true, Bool.true_and]
  · simp only [h, decide_false, Bool.and_false, BitVec.getLsbD_of_ge op n (by omega)]

theorem nop : Statement .nop := fun _ => ⟨by decide, rfl⟩

theorem read (type : Variant) (bank pin : Nat) : Statement (.read type bank pin) := fun _ =>
  ⟨by simp only [encodeWord, Instr.row]; exact commandWord_op _ _ _ _, rfl⟩

theorem ack : Statement .ack := fun _ => ⟨by decide, rfl⟩

theorem idle : Statement .idle := fun _ => ⟨by decide, rfl⟩

theorem acquire : Statement .acquire := fun _ => ⟨by decide, rfl⟩

theorem hsHigh : Statement .hsHigh := fun _ => ⟨by decide, rfl⟩

theorem hsLow : Statement .hsLow := fun _ => ⟨by decide, rfl⟩

theorem release : Statement .release := fun _ => ⟨by decide, rfl⟩

theorem await : Statement .await := fun _ => ⟨by decide, rfl⟩

theorem capLow : Statement .capLow := fun _ => ⟨by decide, rfl⟩

theorem capHigh : Statement .capHigh := fun _ => ⟨by decide, rfl⟩

theorem thresh : Statement .thresh := fun _ => ⟨by decide, rfl⟩

theorem decode : Statement .decode := fun _ => ⟨by decide, rfl⟩

theorem check : Statement .check := fun _ => ⟨by decide, rfl⟩

theorem scale : Statement .scale := fun _ => ⟨by decide, rfl⟩

end Sys2Proof.Laws.TableRow
end

