-- ==== Sys2Proof/Laws/Presentation.lean ====
section
/-! SUPPORT. The host's presentation of a reading (R246): nearest is one value, a representable value is its own nearest,
and small whole numbers are representable. -/

namespace Sys2Proof.Machine

open Sys2Proof

/-- A representable number is presented as itself. -/
theorem nearest_self {f : FloatFmt} {x : ℚ} (h : Representable f x) : Nearest f x x := by
  refine ⟨h, fun y _ => ⟨by simp, fun hne heq => absurd ?_ hne⟩⟩
  rw [sub_self, abs_zero, abs_eq_zero, sub_eq_zero] at heq
  exact heq.symm

/-- There is at most one presentation: two equally near numbers cannot both be even multiples of their gap. -/
theorem nearest_unique {f : FloatFmt} {x r r' : ℚ} (h : Nearest f x r) (h' : Nearest f x r') : r' = r := by
  by_contra hne
  have heq : |x - r'| = |x - r| := le_antisymm (h'.2 r h.1).1 (h.2 r' h'.1).1
  obtain ⟨m, hm⟩ := (h.2 r' h'.1).2 hne heq
  obtain ⟨n, hn⟩ := (h'.2 r h.1).2 (Ne.symm hne) heq.symm
  have hg : |r' - r| ≠ 0 := abs_ne_zero.2 (sub_ne_zero.2 hne)
  rw [abs_sub_comm r r'] at hn
  have key : |(2 * (n - m) : ℚ)| * |r' - r| = 1 * |r' - r| := by
    rw [← abs_abs (r' - r), ← abs_mul, one_mul, abs_abs]
    congr 1
    linear_combination hm - hn
  have hone : |2 * (n - m)| = 1 := by exact_mod_cast mul_right_cancel₀ hg key
  rcases (abs_eq (by norm_num)).1 hone with h1 | h1 <;> omega

/-- A whole number whose digits fit the significand is representable, so a Variant A reading and the whole readings of
Variant B are exact in a format of eight bits (R246). -/
theorem representable_nat {f : FloatFmt} {n : Nat} (hn : n < (f.radixLessTwo + 2) ^ (f.digitsLessOne + 1))
    (hlo : f.minExp ≤ 0) (hhi : 0 ≤ f.minExp + f.expSpan) : Representable f n :=
  ⟨n, 0, by rw [abs_of_nonneg (by positivity)]; exact_mod_cast hn, hlo, hhi, by simp⟩

end Sys2Proof.Machine
end

