-- ==== Sys2Proof/Tests/Slice0.lean ====
section
/-! SUPPORT. Tests. Expected results are the vectors of spec/95 (test vectors) and of the encodings of spec/30, worked
out there or by hand, never by this model. Then one witness for the hypotheses of each statement that has some. -/

namespace Sys2Proof.Tests

open Sys2Proof Sys2Proof.Machine

/-! ### Helpers: small states and what an outcome holds -/

/-- The next state of an outcome. -/
def after : Host.Outcome State Fault Refusal → Option State
  | .next t => some t
  | .fault _ => none
  | .refused _ => none

/-- The fault of an outcome. -/
def faultOf : Host.Outcome State Fault Refusal → Option Fault
  | .next _ => none
  | .fault f => some f
  | .refused _ => none

/-- The reset state with the engine given. -/
def withEng (e : Engine) : State := { State.reset with eng := e }

/-- A read of Variant B on bank `b`, pin `n`, in progress in the phase, its bank cached. -/
def reading (p : BitVec 4) (b : Fin 4) (n : BitVec 8) : Engine :=
  { Engine.reset with
    busy := true, phase := p, argBank := BitVec.ofNat 8 b.val, argPin := n, argType := .b
    mapped := (Vector.replicate 4 false).set b true, crit := p == 6 || p == 7 }

/-- The same read with one DATAIN word and one OE word already chosen. -/
def sensing (p : BitVec 4) (b : Fin 4) (n : BitVec 8) (d : Word) : State :=
  { withEng (reading p b n) with datainIn := [d], oeIn := [0xFFFFFFFF], acqIn := [some .ok] }

/-- A read that waits in ACQUIRE for an answer that does not come. -/
def waiting : State :=
  { withEng { reading 1 3 31 with mapped := Vector.replicate 4 false, acqPending := true } with acqIn := [none] }

/-- Counters of two levels: `HIGH[p]` is `o` for the pairs in `ones`, else `z`; every other slot 0. -/
def twoLevel (ones : List Nat) (z o : BitVec 16) : Vector (BitVec 16) 82 :=
  Vector.ofFn (fun i : Fin 82 =>
    if i.val % 2 = 1 ∧ 3 ≤ i.val then (if ones.contains ((i.val - 1) / 2) then o else z) else 0)

/-- The pairs that carry a 1 bit in the frame 02 8A 01 04 91 of spec/95 W2, from its bits written out:
0000 0010, 1000 1010, 0000 0001, 0000 0100, 1001 0001. -/
def onesW2 : List Nat := [7, 9, 13, 15, 24, 30, 33, 36, 40]

/-- The read of W2 as THRESH finds it. -/
def decoding (p : BitVec 4) : Engine := { reading p 1 28 with pulse := twoLevel onesW2 9 29, pair := 40, crit := false }

/-- The bytes of a frame in RAW. -/
def withRaw (e : Engine) (b0 b1 b2 b3 b4 : Byte) : Engine := { e with raw := #v[b0, b1, b2, b3, b4] }

/-! ### WellFormed: each check refuses an ill-formed term -/

theorem test_wf_read_largest : (Instr.read .b 255 255).wellFormed = true := by decide
theorem test_wf_bank_too_wide : (Instr.read .a 256 0).wellFormed = false := by decide
theorem test_wf_pin_too_wide : (Instr.read .a 0 256).wellFormed = false := by decide

/-! ### Decoding: words written out bit by bit from R121, R123, R125 and R132 -/

/-- RSVD 0000000, TYPE 1, PIN 00011100, BANK 00000001, OP 00000001: READ B, 1, 28 (R132). -/
theorem test_decode_read_b_1_28 :
    decodeCommand 0b0000000_1_00011100_00000001_00000001#32 = .ok (.read .b 1 28) := by decide

/-- The largest legal arguments, spec/95 2.1. -/
theorem test_decode_read_largest :
    decodeCommand 0b0000000_1_00011111_00000011_00000001#32 = .ok (.read .b 3 31) := by decide

/-- RSVD is ignored (R123). -/
theorem test_decode_read_rsvd :
    decodeCommand 0b1111111_0_00000000_00000000_00000001#32 = .ok (.read .a 0 0) := by decide

/-- OP 00000000 and OP 00000010 with every operand bit set (R123). -/
theorem test_decode_nop_ack :
    decodeCommand 0b1111111_1_11111111_11111111_00000000#32 = .ok .nop ∧
    decodeCommand 0b1111111_1_11111111_11111111_00000010#32 = .ok .ack := by decide

/-- OP 00000011 and 11111111 are reserved (R124). -/
theorem test_decode_reserved :
    decodeCommand 0b0000000_1_00011100_00000001_00000011#32 = .error (.reservedOpcode 3) ∧
    decodeCommand 0b0000000_1_00011100_00000001_11111111#32 = .error (.reservedOpcode 255) := by decide

/-- The phase codes of R125, in their order. -/
theorem test_decode_phases :
    [0b0000#4, 0b0001#4, 0b0010#4, 0b0011#4, 0b0100#4, 0b0101#4, 0b0110#4, 0b0111#4, 0b1000#4, 0b1001#4, 0b1010#4,
      0b1011#4].map decodePhase =
    [.ok .idle, .ok .acquire, .ok .hsHigh, .ok .hsLow, .ok .release, .ok .await, .ok .capLow, .ok .capHigh, .ok .thresh,
      .ok .decode, .ok .check, .ok .scale] := by decide

theorem test_decode_phase_reserved :
    [0b1100#4, 0b1101#4, 0b1110#4, 0b1111#4].map decodePhase =
    [.error (.reservedPhase 12), .error (.reservedPhase 13), .error (.reservedPhase 14), .error (.reservedPhase 15)] := by
  decide

/-- Bytes lowest address first (R82, R129); a command of three bytes or a phase byte above 15 is refused. -/
theorem test_decode_bytes :
    decode .command [0x01, 0x01, 0x1C, 0x01] = .ok (.read .b 1 28) ∧ decode .phase [0x05] = .ok .await ∧
    decode .command [0x01, 0x01, 0x1C] = .error (.wrongLength 3) ∧ decode .phase [0x15] = .error (.notAPhaseCode 0x15) := by
  decide

/-- Words of R132. -/
theorem test_encode_read :
    encodeWord (.read .b 1 28) = 0x011C0101 ∧ encodeWord (.read .b 2 32) = 0x01200201 ∧
    encode (.read .a 0 4) = [0x01, 0x00, 0x04, 0x00] ∧ encode .scale = [0x0B] := by decide

/-- No two rows of one form overlap: under both masks their patterns differ. -/
theorem test_rows_disjoint :
    [Instr.nop, .read .a 0 0, .ack, .idle, .acquire, .hsHigh, .hsLow, .release, .await, .capLow, .capHigh, .thresh, .decode,
      .check, .scale].Pairwise (fun i j => i.form ≠ j.form ∨
        i.row.pattern &&& (i.row.mask &&& j.row.mask) ≠ j.row.pattern &&& (i.row.mask &&& j.row.mask)) := by decide

theorem test_table_word :
    decodeTableWord 32 0x011C0101 = some (.read .b 1 28) ∧ decodeTableWord 8 0xB = some .scale ∧
    decodeTableWord 32 0xFF = none ∧ decodeTableWord 8 0xC = none := by decide

/-! ### Host commands: spec/95 2.2 -/

theorem test_nop_keeps_status : (after (exec .nop State.reset)).map (·.eng.statusWord) = some 0x00000000 := by decide

/-- READ B, 1, 28 from reset: STATUS 0x00000011, ARGS 0x00011C01. -/
theorem test_read_accepted :
    (after (exec (.read .b 1 28) State.reset)).map (fun t => (t.eng.readReg 0x004, t.eng.readReg 0x024)) =
      some (0x00000011, 0x00011C01) := by decide

/-- In CAP_LOW of pair 12, STATUS 0x000C0065, READ and ACK change nothing. -/
theorem test_read_busy :
    (after (exec (.read .a 0 4) (withEng { reading 6 1 28 with pair := 12 }))).map
      (fun t => (t.eng.statusWord, t.eng.argsWord)) = some (0x000C0065, 0x00011C01) := by decide

theorem test_ack_busy :
    (after (exec .ack (withEng { reading 6 1 28 with pair := 12 }))).map (·.eng.statusWord) = some 0x000C0065 := by decide

/-- STATUS 0x00005602 becomes 0x00005600, and AWAIT_COUNT is kept. -/
theorem test_ack_clears_done :
    (after (exec .ack (withEng { Engine.reset with
      done := true, outcome := .timeout, failPhase := 5, awaitCount := 32000 }))).map
        (fun t => (t.eng.statusWord, t.eng.awaitCountWord)) = some (0x00005600, 0x00007D00) := by decide

/-! ### Acquisition and handshake: spec/95 2.3 and W8 -/

theorem test_idle_waits : (after (exec .idle State.reset)).map (·.eng.phase) = some 0 := by decide

/-- Answer OK: BANKS 0x2 and HS_HIGH; answer DENIED: STATUS 0x00001402 and BANKS 0; READ A, 4, 0: STATUS 0x00001202. -/
theorem test_acquire_ends :
    (after (exec .acquire { withEng { reading 1 1 28 with mapped := Vector.replicate 4 false } with acqIn := [some .ok] })).map
      (fun t => (t.eng.banksWord, t.eng.phase, t.log)) = some (0x2, 2, [.acqReq 1]) ∧
    (after (exec .acquire { withEng { reading 1 1 28 with mapped := Vector.replicate 4 false } with
      acqIn := [some .denied] })).map (fun t => (t.eng.statusWord, t.eng.banksWord)) = some (0x00001402, 0) ∧
    (after (exec .acquire (withEng { Engine.reset with busy := true, phase := 1, argBank := 4 }))).map
      (fun t => (t.eng.statusWord, t.log)) = some (0x00001202, []) := by decide

/-- Pin 28 of bank 1, OE read 0xFFFFFFFF: lines 1 to 4 of the trace. -/
theorem test_hsHigh_trace :
    (after (exec .hsHigh (sensing 2 1 28 0))).map (fun t => (t.log.reverse, t.eng.phase)) =
      some ([.read 1 .oe 0xFFFFFFFF, .write 1 .oe 0xEFFFFFFF, .write 1 .set 0x10000000, .wait 500], 3) := by decide

/-- Lines 5 and 6 of the trace. -/
theorem test_hsLow_trace :
    (after (exec .hsLow (sensing 3 1 28 0))).map (fun t => (t.log.reverse, t.eng.phase)) =
      some ([.write 1 .clr 0x10000000, .wait 20], 4) := by decide

/-- Lines 7 and 8 of the trace, and the bank's OE after them. -/
theorem test_release_trace :
    (after (exec .release { sensing 4 1 28 0 with oeIn := [0xEFFFFFFF] })).map
      (fun t => (t.log.reverse, t.banks[1].oe, t.eng.phase)) =
      some ([.read 1 .oe 0xEFFFFFFF, .write 1 .oe 0xFFFFFFFF], 0xFFFFFFFF, 5) := by decide

/-! ### Pulse-duration timer: spec/95 2.4, W5, W6 -/

/-- The 32000th high poll: STATUS 0x00005602, AWAIT_COUNT 0x7D00. -/
theorem test_await_timeout :
    (after (exec .await { sensing 5 1 28 0x10000000 with eng := { reading 5 1 28 with awaitCount := 31999 } })).map
      (fun t => (t.eng.statusWord, t.eng.awaitCountWord)) = some (0x00005602, 0x00007D00) := by decide

/-- Pin 28 low in 0xEFFFFFFF: the capture begins with AWAIT_COUNT 3 kept. -/
theorem test_await_low :
    (after (exec .await { sensing 5 1 28 0xEFFFFFFF with eng := { reading 5 1 28 with awaitCount := 3 } })).map
      (fun t => (t.eng.awaitCount, t.eng.crit, t.eng.phase)) = some (3, true, 6) := by decide

/-- Pair 12: the low poll that reaches the ceiling, PULSE[24] = 32000, STATUS 0x000C6602. -/
theorem test_capLow_timeout :
    (after (exec .capLow { sensing 6 1 28 0 with
      eng := { reading 6 1 28 with pair := 12, pulse := (Vector.replicate 82 0).set 24 31999 } })).map
        (fun t => (t.eng.statusWord, t.eng.readReg 0x160)) = some (0x000C6602, 0x00007D00) := by decide

/-- A high poll ends the loop and is not counted (R205). -/
theorem test_capLow_high :
    (after (exec .capLow { sensing 6 1 28 0x10000000 with
      eng := { reading 6 1 28 with pair := 3, pulse := (Vector.replicate 82 0).set 6 2 } })).map
        (fun t => (t.eng.pulse[6], t.eng.phase)) = some (2, 7) := by decide

/-- Pair 40, a high poll at the ceiling: STATUS 0x00287602 and PULSE[81] = 32000. -/
theorem test_capHigh_timeout :
    (after (exec .capHigh { sensing 7 1 28 0x10000000 with
      eng := { reading 7 1 28 with pair := 40, pulse := (Vector.replicate 82 0).set 81 31999 } })).map
        (fun t => (t.eng.statusWord, t.eng.readReg 0x244)) = some (0x00287602, 0x00007D00) := by decide

/-- Pair 40 ends: PULSE[81] = 4 kept, CRIT 0, THRESH. -/
theorem test_capHigh_last :
    (after (exec .capHigh { sensing 7 1 28 0 with
      eng := { reading 7 1 28 with pair := 40, pulse := (Vector.replicate 82 0).set 81 4 } })).map
        (fun t => (t.eng.pulse[81], t.eng.crit, t.eng.phase, t.eng.pair)) = some (4, false, 8, 40) := by decide

/-! ### Threshold, packer, checksum, scaling: spec/95 W1 to W7 and 2.5 -/

/-- Nine high counters of 29 and thirty-one of 9: THRESHOLD 13 (W2). -/
theorem test_thresh_w2 :
    (after (exec .thresh (withEng (decoding 8)))).map (fun t => (t.eng.threshold, t.eng.phase)) = some (13, 9) := by decide

/-- The counters of W2 against 13: bytes 02 8A 01 04 91, RAW_LO 0x04018A02, RAW_HI 0x91. -/
theorem test_decode_w2 :
    (after (exec .decode (withEng { decoding 9 with threshold := 13 }))).map
      (fun t => (t.eng.readReg 0x010, t.eng.readReg 0x014, t.eng.phase)) = some (0x04018A02, 0x00000091, 10) := by decide

/-- A counter equal to the threshold decodes as 1 and one below it as 0 (W7): pair 7 at 13, then at 12. -/
theorem test_decode_boundary :
    (after (exec .decode (withEng { decoding 9 with
      threshold := 13, pulse := (twoLevel onesW2 9 29).set 15 13 }))).map (·.eng.raw[0]) = some 0x02 ∧
    (after (exec .decode (withEng { decoding 9 with
      threshold := 13, pulse := (twoLevel onesW2 9 29).set 15 12 }))).map (·.eng.raw[0]) = some 0x00 := by decide

/-- FF FF FF 01 FE passes (2.5). -/
theorem test_check_passes :
    (after (exec .check (withEng (withRaw (decoding 10) 0xFF 0xFF 0xFF 0x01 0xFE)))).map (·.eng.phase) = some 11 := by decide

/-- 02 8A 01 04 90 does not: STATUS 0x0028A702 (W4). -/
theorem test_check_mismatch :
    (after (exec .check (withEng (withRaw (decoding 10) 0x02 0x8A 0x01 0x04 0x90)))).map (·.eng.statusWord) =
      some 0x0028A702 := by decide

/-- Variant B, W3: HUMIDITY 650, TEMPERATURE 0x00008104 (26.0 below zero), STATUS 0x00280102. -/
theorem test_scale_b_negative :
    (after (exec .scale (withEng (withRaw (decoding 11) 0x02 0x8A 0x81 0x04 0x11)))).map
      (fun t => (t.eng.readReg 0x004, t.eng.readReg 0x008, t.eng.readReg 0x00C)) =
      some (0x00280102, 0x0000028A, 0x00008104) := by decide

/-- Variant A has no sign: 00 00 81 00 81 gives TEMP_MAG 129 (2.5). -/
theorem test_scale_a_unsigned :
    (after (exec .scale (withEng { withRaw (decoding 11) 0x00 0x00 0x81 0x00 0x81 with argType := .a }))).map
      (fun t => (t.eng.humidityWord, t.eng.temperatureWord)) = some (0, 0x00000081) := by decide

/-! ### Ports, reset, stops -/

/-- A host write of READ B, 1, 28 to CMD (2.2). -/
theorem test_step_host_write :
    (after (step { State.reset with inbox := [.host ⟨0, 4, .write 0x011C0101⟩] })).map
      (fun t => (t.eng.statusWord, t.reply, t.inbox)) = some (0x00000011, some .written, []) := by decide

/-- A host read of STATUS changes nothing and answers the word (R83). -/
theorem test_step_host_read :
    (after (step { withEng { reading 6 1 28 with pair := 12 } with inbox := [.host ⟨0x004, 4, .read⟩] })).map
      (fun t => (t.eng.statusWord, t.reply)) = some (0x000C0065, some (.data 0x000C0065)) := by decide

/-- A two-byte access is refused on the bus (R81), and a byte of the window is little-endian (R82). -/
theorem test_host_narrow :
    (after (step { State.reset with inbox := [.host ⟨0x004, 2, .read⟩] })).map (·.reply) = some (some .busError) ∧
    (withRaw (decoding 11) 0x02 0x8A 0x01 0x04 0x91).windowByte 0x011 = 0x8A := by decide

/-- Reset in CAP_HIGH of pair 20 after its poll: STATUS 0, no outcome (2.7); the bank keeps its registers. -/
theorem test_reset_in_capture :
    (after (step { sensing 7 1 28 0 with eng := { reading 7 1 28 with pair := 20 }, inbox := [.reset 1] })).map
      (fun t => (t.eng, t.banks)) = some (Engine.reset, State.reset.banks) := by decide

/-- Reset in HS_HIGH after the write of OE and before the write of SET: the bank keeps the new OE (R312). -/
theorem test_reset_in_handshake :
    (after (step { sensing 2 1 28 0 with inbox := [.reset 2] })).map (fun t => (t.eng, t.banks[1])) =
      some (Engine.reset, ⟨0xEFFFFFFF, 0⟩) := by decide

/-- No answer: the request is raised, STATUS stays 0x00000011 (2.3), the next turn is stuck, and a host read still answers. -/
theorem test_acquire_waits :
    (after (exec .acquire { waiting with eng := { waiting.eng with acqPending := false } })).map
      (fun t => (t.eng.statusWord, t.acqReq, t.log)) = some (0x00000011, true, [.acqReq 3]) ∧
    faultOf (step waiting) = some .platformSilent ∧
    (after (step { waiting with inbox := [.host ⟨0x004, 4, .read⟩] })).map (·.reply) = some (some (.data 0x00000011)) := by
  decide

/-- A reserved phase code is stuck (R127), and so is an access that never completes (R279). -/
theorem test_stuck :
    faultOf (step (withEng { Engine.reset with phase := 12 })) = some .reservedPhase ∧
    ((after (step { sensing 5 1 28 0 with inbox := [.hang 1] })).bind (fun t => faultOf (step t))) = some .accessHung := by
  decide

/-- The placed command, and the placed phase code HS_LOW on pin 0 of bank 0, run as the first instruction after reset. -/
theorem test_placed :
    (after (step (State.reset.withFetchWord 32 0x011C0101))).map (·.eng.statusWord) = some 0x00000011 ∧
    (after (step (State.reset.withFetchWord 8 3))).map (fun t => (t.eng.phase, t.log.reverse)) =
      some (4, [.write 0 .clr 1, .wait 20]) := by decide

/-- A level that never falls ends the response wait at the ceiling (R201, R209). -/
theorem countLoop_stays_high (n c : Nat) (h : c + (n + 1) = 32000) :
    countLoop true c (List.replicate (n + 1) true) = some (.ceiling 32000 []) := by
  induction n generalizing c with
  | zero => simp [countLoop]; omega
  | succ n ih =>
    rw [List.replicate_succ, countLoop, if_pos rfl, if_neg (by omega)]
    exact ih (c + 1) (by omega)

/-- So `capture` of 32000 high levels is a TIMEOUT in AWAIT after 32000 polls (W5). -/
theorem capture_stays_high (n : Nat) (h : n = 32000) :
    capture (List.replicate n true) = some ⟨some 5, 0, 32000, [], 32000⟩ := by
  subst h
  have := countLoop_stays_high 31999 0 (by omega)
  simp only [Nat.reduceAdd] at this
  simp only [capture, this, List.length_replicate, List.length_nil, Nat.sub_zero]

/-! ### Witnesses: for each statement with hypotheses, states and operands that meet all of them, each clause at the edge
of its range -/

/-- Pin 31 of bank 3, the largest legal handle, in the phase, with the sensor word given. -/
def edge (p : BitVec 4) (d : Word) : State := sensing p 3 31 d

/-- As `edge`, with both counters of pair 40 and AWAIT_COUNT one below the ceiling. -/
def full (p : BitVec 4) (d : Word) : State :=
  { edge p d with eng := { (edge p d).eng with
      pair := 40, awaitCount := 31999, pulse := ((Vector.replicate 82 0).set 80 31999).set 81 31999 } }

/-- A timed-out read: AWAIT_COUNT at the ceiling, DONE. -/
def timedOut : Engine :=
  { Engine.reset with done := true, outcome := .timeout, failPhase := 5, awaitCount := 32000, argBank := 3, argPin := 31 }

/-- Sensor words for pin 31 whose levels are low, then forty-one times high and low: a whole capture of zero counts. -/
def shortest : List Word := 0 :: (List.replicate 41 [0x80000000, 0]).flatten

theorem witness_DecodeUndoesEncode :
    [Instr.read .b 255 255, .read .a 0 0, .nop, .ack, .idle, .scale].all Instr.wellFormed = true := by decide

theorem witness_CommandWordReencodes :
    decodeCommand 0xFFFFFF01 = .ok (.read .b 255 255) ∧ decodeCommand 0xFFFFFF00 = .ok .nop ∧
    decodeCommand 0xFFFFFF02 = .ok .ack := by decide

/-- The edges of each range of OP and of the phase codes, with every other bit set. -/
theorem witness_ReservedCodesAreRejected :
    (0xFFFFFF00#32).toNat % 256 = 0 ∧ (0xFFFFFF01#32).toNat % 256 = 1 ∧ (0xFFFFFF02#32).toNat % 256 = 2 ∧
    3 ≤ (0xFFFFFF03#32).toNat % 256 ∧ (11#4).toNat < 12 ∧ 12 ≤ (12#4).toNat := by decide

theorem witness_StepRunsThePhase :
    (edge 11 0).quiet ∧ decodePhase (edge 11 0).eng.phase = .ok .scale ∧
    ({ edge 0 0 with inbox := [.engine] } : State).inbox = .engine :: [] ∧ (edge 0 0).hung = false ∧
    decodePhase (edge 0 0).eng.phase = .ok .idle := by decide

theorem witness_StepRunsTheCommand :
    ({ State.reset with inbox := [.host ⟨0, 4, .write 0xFFFFFF02⟩] } : State).inbox =
      .host ⟨0, 4, .write 0xFFFFFF02⟩ :: [] ∧ decodeCommand 0xFFFFFF02 = .ok .ack := by decide

theorem witness_PlacedWordRunsNext :
    decodeTableWord 8 11 = some .scale ∧ decodeTableWord 9 2 = some .ack ∧
    decodeTableWord 32 0xFFFFFF01 = some (.read .b 255 255) ∧ State.reset.hung = false := by decide

theorem witness_ReservedCommandIsIgnored :
    ({ State.reset with inbox := [.host ⟨0, 4, .write 0xFFFFFF03⟩] } : State).inbox =
      .host ⟨0, 4, .write 0xFFFFFF03⟩ :: [] ∧ 3 ≤ (0xFFFFFF03#32).toNat % 256 := by decide

theorem witness_IdleWaits : State.reset.quiet ∧ State.reset.eng.phase = 0 := by decide

theorem witness_ReadIsAccepted : State.reset.eng.busy = false ∧ 255 < 256 ∧ 0 < 256 := by decide

theorem witness_ReadWhileBusyIsIgnored : (edge 5 0).eng.busy = true := by decide

theorem witness_NoCommandStopsARead :
    ({ edge 7 0 with inbox := [.host ⟨0, 4, .write 2⟩] } : State).eng.busy = true ∧
    ({ edge 7 0 with inbox := [.host ⟨0, 4, .write 2⟩] } : State).inbox = .host ⟨0, 4, .write 2⟩ :: [] := by decide

/-- Handles (4, 0) and (0, 32) for the first clause; pin 31 of bank 3 cached, and not cached with each answer. -/
theorem witness_AcquireFollowsItsRule :
    3 < ({ Engine.reset with argBank := 4 } : Engine).argBank.toNat ∧
    31 < ({ Engine.reset with argPin := 32 } : Engine).argPin.toNat ∧
    ((edge 1 0).pinValid 3 ∧ (edge 1 0).eng.mapped[3] = true) ∧
    (∀ r : List (Option AcqAnswer), r = [some .ok] ∨ r = [some .denied] ∨ r = [some .mapFailed] ∨ r = [some .unavailable] →
      ({ withEng { Engine.reset with argBank := 3, argPin := 31 } with acqIn := r } : State).pinValid 3 ∧
      ({ withEng { Engine.reset with argBank := 3, argPin := 31 } with acqIn := r } : State).eng.mapped[3] = false ∧
      ({ withEng { Engine.reset with argBank := 3, argPin := 31 } with acqIn := r } : State).acqAnswer.isSome = true) := by
  refine ⟨by decide, by decide, by decide, ?_⟩
  rintro r (rfl | rfl | rfl | rfl) <;> decide

/-- A request about to be raised, and one that stands with no answer. -/
theorem witness_AcquireWaitsForThePlatform :
    ({ withEng { Engine.reset with argBank := 3, argPin := 31 } with acqIn := [none] } : State).pinValid 3 ∧
    ({ withEng { Engine.reset with argBank := 3, argPin := 31 } with acqIn := [none] } : State).eng.mapped[3] = false ∧
    ({ withEng { Engine.reset with argBank := 3, argPin := 31 } with acqIn := [none] } : State).acqAnswer = none ∧
    ({ withEng { Engine.reset with argBank := 3, argPin := 31 } with acqIn := [none] } : State).eng.acqPending = false ∧
    waiting.awaitsPlatform ∧ waiting.sequencerMoves ∧ waiting.hung = false ∧ waiting.eng.phase = 1 := by decide

/-- Also bit 31 itself and another bit, and the other banks. -/
theorem witness_DirOutClearsOnlyItsBit :
    (edge 2 0).pinValid 3 ∧ (31 : Nat) < 32 ∧ (0 : Nat) < 32 ∧ (2 : Fin 4) ≠ 3 := by decide

theorem witness_DirInSetsOnlyItsBit :
    (edge 4 0).pinValid 3 ∧ (sensing 4 0 0 0).pinValid 0 ∧ (0 : Nat) < 32 ∧ (3 : Fin 4) ≠ 0 := by decide

theorem witness_LevelWritesTouchOnlyTheirPin :
    (edge 3 0).pinValid 3 ∧ (sensing 3 0 0 0).pinValid 0 ∧ (31 : Nat) < 32 ∧ (0 : Fin 4) ≠ 3 := by decide

theorem witness_HsHighDrivesThePinHigh : (edge 2 0).pinValid 3 ∧ (sensing 2 0 0 0).pinValid 0 := by decide
theorem witness_HsLowDrivesThePinLow : (edge 3 0).pinValid 3 ∧ (sensing 3 0 0 0).pinValid 0 := by decide
theorem witness_ReleaseMakesThePinAnInput : (edge 4 0).pinValid 3 ∧ (sensing 4 0 0 0).pinValid 0 := by decide

theorem witness_HandshakeTraceIsExact :
    ((edge 2 0).quiet ∧ (edge 2 0).pinValid 3 ∧ (edge 2 0).eng.phase = 2) ∧
    ((edge 5 0).quiet ∧ (edge 5 0).pinValid 3 ∧ (edge 5 0).eng.phase = 5) ∧
    ((full 7 0).quiet ∧ (full 7 0).pinValid 3 ∧ (full 7 0).eng.phase = 7) ∧
    ((edge 8 0).quiet ∧ (edge 8 0).eng.phase = 8) ∧ ((edge 11 0).quiet ∧ (edge 11 0).eng.phase = 11) := by decide

/-- The last poll below the ceiling, the poll that reaches it, and a low poll. -/
theorem witness_AwaitCountsHighPolls :
    ((full 5 0x80000000).pinValid 3 ∧ (full 5 0x80000000).datainWord.getLsbD 31 = true ∧
      32000 ≤ ((full 5 0x80000000).eng.awaitCount + 1).toNat) ∧
    ((edge 5 0x80000000).pinValid 3 ∧ ¬32000 ≤ ((edge 5 0x80000000).eng.awaitCount + 1).toNat) ∧
    ((edge 5 0).pinValid 3 ∧ (edge 5 0).datainWord.getLsbD 31 = false) := by decide

theorem witness_CapLowCountsLowPolls :
    ((full 6 0).pinValid 3 ∧ (full 6 0).datainWord.getLsbD 31 = false ∧ 32000 ≤ ((full 6 0).eng.pulse[80] + 1).toNat) ∧
    ((edge 6 0).pinValid 3 ∧ ¬32000 ≤ ((edge 6 0).eng.pulse[0] + 1).toNat) ∧
    ((edge 6 0x80000000).pinValid 3 ∧ (edge 6 0x80000000).datainWord.getLsbD 31 = true) := by decide

/-- Also the low polls of pairs 39 and 40. -/
theorem witness_CapHighCountsHighPolls :
    ((full 7 0x80000000).pinValid 3 ∧ (full 7 0x80000000).datainWord.getLsbD 31 = true ∧
      32000 ≤ ((full 7 0x80000000).eng.pulse[81] + 1).toNat) ∧
    ((edge 7 0x80000000).pinValid 3 ∧ ¬32000 ≤ ((edge 7 0x80000000).eng.pulse[1] + 1).toNat) ∧
    ((full 7 0).pinValid 3 ∧ (full 7 0).datainWord.getLsbD 31 = false ∧ ¬(full 7 0).eng.pair.val < 40) ∧
    ((withEng { reading 7 3 31 with pair := 39 }).pinValid 3 ∧ (withEng { reading 7 3 31 with pair := 39 }).eng.pair.val < 40) := by
  decide

theorem witness_OtherPinsDoNotMatter :
    (0xFFFFFFFF#32).getLsbD (edge 7 0).eng.argPin.toNat = (0x80000000#32).getLsbD (edge 7 0).eng.argPin.toNat ∧
    (0x7FFFFFFF#32).getLsbD (edge 5 0).eng.argPin.toNat = (0#32).getLsbD (edge 5 0).eng.argPin.toNat := by decide

theorem witness_ScaleVariantA : (withEng { decoding 11 with argType := .a }).eng.argType = .a := by decide
theorem witness_ScaleVariantB : (withEng (decoding 11)).eng.argType = .b := by decide

theorem witness_DecodePhasesFrame :
    (∃ t, exec .thresh (withEng (decoding 8)) = .next t) ∧ (∃ t, exec .decode (withEng (decoding 9)) = .next t) ∧
    (∃ t, exec .check (withEng (decoding 10)) = .next t) ∧ (∃ t, exec .scale (withEng (decoding 11)) = .next t) :=
  ⟨⟨_, rfl⟩, ⟨_, rfl⟩, ⟨_, rfl⟩, ⟨_, rfl⟩⟩

/-- The third clause at its bound and the fourth, with every data high counter 31999. -/
theorem witness_ThresholdLiesBetweenTheCounters :
    (∀ p ∈ Finset.Icc 1 40, ({ Engine.reset with pulse := Vector.replicate 82 31999 } : Engine).slot (2 * p + 1) ≤ 31999) ∧
    (∀ p ∈ Finset.Icc 1 40, ({ Engine.reset with pulse := Vector.replicate 82 31999 } : Engine).slot (2 * p + 1) = 31999) := by
  decide

theorem witness_AllZeroFrameIsNeverDecoded :
    ((withEng { decoding 8 with pulse := Vector.replicate 82 7 }).quiet ∧
      (withEng { decoding 8 with pulse := Vector.replicate 82 7 }).eng.phase = 8) ∧
    (∀ p ∈ Finset.Icc 1 40, (withEng { decoding 8 with pulse := Vector.replicate 82 7 }).eng.slot (2 * p + 1) =
      (withEng { decoding 8 with pulse := Vector.replicate 82 7 }).eng.slot 3) := by decide

/-- Nine 1 bits of 29 over 9, as in W2; and of 3 over 1, where every bit decodes as 1 (spec/95 2.5). -/
theorem witness_TwoLevelCaptureDecodes :
    ((withEng (decoding 8)).quiet ∧ (withEng (decoding 8)).eng.phase = 8 ∧ onesW2.toFinset ⊆ Finset.Icc 1 40 ∧ 9 < 29 ∧
      ¬onesW2.toFinset.card * (29 - 9) < 40 ∧
      (∀ p ∈ Finset.Icc 1 40, (withEng (decoding 8)).eng.slot (2 * p + 1) = if p ∈ onesW2.toFinset then 29 else 9)) ∧
    (onesW2.toFinset.card * (3 - 1) < 40 ∧ 1 < 3 ∧
      (∀ p ∈ Finset.Icc 1 40, (withEng { decoding 8 with pulse := twoLevel onesW2 1 3 }).eng.slot (2 * p + 1) =
        if p ∈ onesW2.toFinset then 3 else 1)) := by decide

theorem witness_DecodePipelineIsDecodeAll :
    (withEng (decoding 8)).quiet ∧ (withEng (decoding 8)).eng.phase = 8 ∧ (withEng (decoding 8)).eng.resultsZero := by decide

/-- A whole capture, and the response wait that ends at the ceiling (W5). -/
theorem witness_CaptureIsThePureFunction :
    ((edge 5 0).quiet ∧ (edge 5 0).pinValid 3 ∧ (edge 5 0).eng.phase = 5 ∧ (edge 5 0).eng.awaitCount = 0 ∧
      (edge 5 0).eng.pulse = Vector.replicate 82 0 ∧ (edge 5 0).eng.pair = 0) ∧
    capture (({ edge 5 0 with datainIn := shortest } : State).datainIn.map
      (fun w => w.getLsbD (edge 5 0).eng.argPin.toNat)) = some ⟨none, 40, 0, List.replicate 82 0, 83⟩ ∧
    capture (({ edge 5 0 with datainIn := List.replicate 32000 0x80000000 } : State).datainIn.map
      (fun w => w.getLsbD (edge 5 0).eng.argPin.toNat)) = some ⟨some 5, 0, 32000, [], 32000⟩ := by
  refine ⟨by decide, by decide, ?_⟩
  show capture ((List.replicate 32000 (0x80000000 : Word)).map (fun w => w.getLsbD 31)) = _
  rw [List.map_replicate, show (0x80000000 : Word).getLsbD 31 = true by decide]
  exact capture_stays_high 32000 (by decide)

theorem witness_CaptureUsesBoundedPolls :
    capture (shortest.map (fun w => w.getLsbD 31)) = some ⟨none, 40, 0, List.replicate 82 0, 83⟩ ∧
    2656000 ≤ (List.replicate 2656000 true).length :=
  ⟨by decide, by rw [List.length_replicate]⟩

/-- The engine after a timeout meets every clause, with AWAIT_COUNT at the ceiling. -/
theorem legal_timedOut : (withEng timedOut).Legal := by
  constructor
  · constructor <;> decide
  · decide

/-- So does a read in CAP_HIGH of pair 40 with three counters one below the ceiling, and its next poll is a high one. -/
theorem legal_full : (full 7 0x80000000).Legal := by
  constructor
  · constructor <;> decide
  · decide

/-- And a read that waits in ACQUIRE with its request pending. -/
theorem legal_waiting : waiting.Legal := by
  constructor
  · constructor <;> decide
  · decide

theorem witness_StepKeepsLegal :
    ((full 7 0x80000000).Legal ∧ ∃ t, step (full 7 0x80000000) = .next t) ∧
    ((withEng timedOut).Legal ∧ ∃ t, step (withEng timedOut) = .next t) :=
  ⟨⟨legal_full, _, rfl⟩, ⟨legal_timedOut, _, rfl⟩⟩

/-- The sequencer's turn with neither stuck case, and a host move while the platform is silent. -/
theorem witness_LegalMachineStopsOnlyWhereStuck :
    ((full 7 0x80000000).Legal ∧ (full 7 0x80000000).sequencerMoves ∧ (full 7 0x80000000).hung = false ∧
      ¬(full 7 0x80000000).awaitsPlatform) ∧
    ({ waiting with inbox := [.host ⟨0x004, 4, .read⟩] } : State).Legal ∧
    ¬({ waiting with inbox := [.host ⟨0x004, 4, .read⟩] } : State).sequencerMoves :=
  ⟨⟨legal_full, by decide, by decide, by decide⟩, ⟨legal_waiting.engine, by decide⟩, by decide⟩

theorem witness_LaterSlotsStayZero :
    (full 7 0x80000000).Legal ∧ (full 7 0x80000000).eng.LaterSlotsZero ∧ (withEng timedOut).eng.LaterSlotsZero ∧
    ∃ t, step (full 7 0x80000000) = .next t :=
  ⟨legal_full, by unfold Engine.LaterSlotsZero; decide, by unfold Engine.LaterSlotsZero; decide, _, rfl⟩

/-- Bank 3 becomes cached in a step of ACQUIRE; a cached bank in any step. -/
theorem witness_MappedChangesOnlyByAcquire :
    ((after (step { edge 1 0 with eng := { reading 1 3 31 with mapped := Vector.replicate 4 false } })).map
      (·.eng.mapped[3]) = some true) ∧ (edge 1 0).inbox = [] ∧ (edge 5 0).eng.mapped[3] = true ∧
      (after (step (edge 5 0))).isSome = true := by decide

/-- An instruction that changes each register. -/
theorem witness_EachRegisterHasItsWriters :
    (after (exec .capHigh (full 7 0x80000000))).map (·.eng.pulse[81]) = some 32000 ∧
    (after (exec .await (edge 5 0x80000000))).map (fun t => (t.eng.awaitCount, t.eng.crit)) = some (1, false) ∧
    (after (exec .await (edge 5 0))).map (fun t => (t.eng.awaitCount, t.eng.crit)) = some (0, true) ∧
    (after (exec .thresh (withEng (decoding 8)))).map (·.eng.threshold) = some 13 ∧
    (after (exec .decode (withEng (decoding 9)))).map (·.eng.raw[0]) = some 0xFF ∧
    (after (exec .scale (withEng (withRaw (decoding 11) 1 0 0 0 1)))).map (·.eng.humNum) = some 256 ∧
    (after (exec (.read .a 3 31) State.reset)).map (fun t => (t.eng.argBank, t.eng.argPin)) = some (3, 31) ∧
    (after (exec .capHigh (sensing 7 3 31 0))).map (·.eng.pair) = some 1 ∧
    (after (exec .acquire (edge 1 0))).map (·.eng.phase) = some 2 ∧
    (full 7 0x80000000).eng.crit = true ∧ (full 7 0x80000000).eng.busy = true ∧
    (after (exec .capHigh (full 7 0x80000000))).map (fun t => (t.eng.crit, t.eng.busy, t.eng.outcome, t.eng.failPhase,
      t.eng.done)) = some (false, false, .timeout, 7, true) ∧
    (after (exec .ack (withEng timedOut))).map (·.eng.done) = some false := by decide

/-- One event of each kind, at the edge handle. -/
theorem witness_PortIsUsedOnlyForThePin :
    (after (exec .hsHigh (edge 2 0))).map (fun t => t.log.length) = some 4 ∧
    (after (exec .hsLow (edge 3 0))).map (fun t => t.log.length) = some 2 ∧
    (after (exec .release (edge 4 0))).map (fun t => t.log.length) = some 2 ∧
    (after (exec .capLow (edge 6 0))).map (fun t => t.log.length) = some 1 ∧
    (after (exec .acquire { edge 1 0 with eng := { reading 1 3 31 with mapped := Vector.replicate 4 false } })).map
      (·.log) = some [.acqReq 3] := by decide

/-- A timeout raises irq_done; an ACK and a READ of a legal, finished machine lower it. -/
theorem witness_InterruptRisesAndFallsByRule :
    ((full 7 0x80000000).Legal ∧ (full 7 0x80000000).irqDone = false ∧
      (after (step (full 7 0x80000000))).map (·.irqDone) = some true) ∧
    (({ withEng timedOut with inbox := [.host ⟨0, 4, .write 0xFFFFFF02⟩] } : State).Legal ∧ (withEng timedOut).irqDone = true ∧
      (after (step { withEng timedOut with inbox := [.host ⟨0, 4, .write 0xFFFFFF02⟩] })).map (·.irqDone) = some false) ∧
    (after (step { withEng timedOut with inbox := [.host ⟨0, 4, .write 0x001F0301⟩] })).map (·.irqDone) = some false :=
  ⟨⟨legal_full, by decide, by decide⟩, ⟨⟨legal_timedOut.engine, by decide⟩, by decide, by decide⟩, by decide⟩

theorem witness_HostReadHasNoSideEffect :
    ({ State.reset with inbox := [.host ⟨0x3FC, 4, .read⟩] } : State).inbox = .host ⟨0x3FC, 4, .read⟩ :: [] ∧
    (0x3FC#10).toNat % 4 = 0 := by decide

theorem witness_OtherAccessGetsABusError :
    ({ State.reset with inbox := [.host ⟨0, 3, .write 1⟩] } : State).inbox = .host ⟨0, 3, .write 1⟩ :: [] ∧ (3 : Nat) ≠ 4 ∧
    ({ State.reset with inbox := [.host ⟨0x3FF, 4, .read⟩] } : State).inbox = .host ⟨0x3FF, 4, .read⟩ :: [] ∧
    (0x3FF#10).toNat % 4 ≠ 0 := by decide

theorem witness_WritesElsewhereAreIgnored :
    ({ State.reset with inbox := [.host ⟨0x004, 4, .write 1⟩] } : State).inbox = .host ⟨0x004, 4, .write 1⟩ :: [] ∧
    (0x004#10).toNat % 4 = 0 ∧ (0x004#10) ≠ 0 ∧ (0x3FC#10).toNat % 4 = 0 ∧ (0x3FC#10) ≠ 0 := by decide

/-- Distinct values in the fields of STATUS and of the words of the window, by hand. -/
theorem witness_HostWindowReadsTheRegisters :
    ({ Engine.reset with busy := true, crit := true, phase := 7, outcome := .timeout, failPhase := 9, pair := 40 } :
      Engine).readReg 0x004 = 0x00289675 ∧
    ({ Engine.reset with tempNeg := true, tempMag := 0x1234 } : Engine).readReg 0x00C = 0x00009234 ∧
    ({ Engine.reset with mapped := #v[false, true, false, true] } : Engine).readReg 0x020 = 0xA ∧
    ({ Engine.reset with pulse := (Vector.replicate 82 0).set 81 0xABCD } : Engine).readReg 0x244 = 0x0000ABCD ∧
    ((0x028#10).toNat % 4 = 0 ∧ 0x024 < (0x028#10).toNat ∧ (0x028#10).toNat < 0x100) ∧ 0x244 < (0x248#10).toNat ∧
    ((0 : Nat) < 32 ∧ (3 : Nat) < 4 ∧ ¬(4 : Nat) < 4) := by decide

theorem witness_ResetClearsTheEngine :
    ({ full 7 0 with inbox := [.reset 1, .engine] } : State).inbox = .reset 1 :: [.engine] := by decide

/-- Each number of accesses of HS_HIGH, RELEASE, HS_LOW and a poll, a phase without access, and an access that hangs. -/
theorem witness_ResetLeavesTheBanks :
    ([0, 1, 2, 3].all fun n => ({ edge 2 0 with inbox := [.reset n] } : State).inbox == .reset n :: []) = true ∧
    ((edge 2 0).pinValid 3 ∧ (edge 2 0).hung = false ∧ (edge 2 0).eng.phase = 2) ∧
    ((edge 4 0).pinValid 3 ∧ (edge 4 0).hung = false ∧ (edge 4 0).eng.phase = 4) ∧
    ((edge 3 0).pinValid 3 ∧ (edge 3 0).hung = false ∧ (edge 3 0).eng.phase = 3) ∧
    ((edge 7 0).pinValid 3 ∧ (edge 7 0).hung = false ∧ (edge 7 0).eng.phase = 7) ∧
    accessPhase (edge 11 0).eng.phase = false ∧
    ({ edge 2 0 with inbox := [.reset 1], hung := true } : State).hung = true ∧
    (edge 2 0).eng.argBank.toNat ≠ (2 : Fin 4).val := by decide

/-- Each clause with the inbox empty or the engine's move at its head; IDLE with a pin that does not exist for the last. -/
theorem witness_SequencerStopsOnlyWhereStuck :
    ({ edge 7 0 with hung := true, inbox := [.engine] } : State).sequencerMoves ∧
    ((withEng { Engine.reset with phase := 12 }).sequencerMoves ∧
      12 ≤ (withEng { Engine.reset with phase := 12 }).eng.phase.toNat) ∧
    ((withEng { reading 2 0 0 with argBank := 4 }).sequencerMoves ∧
      accessPhase (withEng { reading 2 0 0 with argBank := 4 }).eng.phase = true ∧
      4 ≤ (withEng { reading 2 0 0 with argBank := 4 }).eng.argBank.toNat) ∧
    (waiting.sequencerMoves ∧ waiting.hung = false ∧ waiting.eng.phase = 1 ∧ waiting.awaitsPlatform) ∧
    ({ waiting with acqIn := [some .denied] } : State).sequencerMoves ∧
    ¬({ waiting with acqIn := [some .denied] } : State).awaitsPlatform ∧
    (accessPhase (reading 7 0 32).phase = true ∧ 32 ≤ (reading 7 0 32).argPin.toNat) ∧
    ((withEng { Engine.reset with argBank := 4 }).sequencerMoves ∧
      accessPhase (withEng { Engine.reset with argBank := 4 }).eng.phase = false) ∧
    ((edge 7 0).sequencerMoves ∧ (edge 7 0).eng.phase.toNat < 12 ∧ (edge 7 0).pinValid 3) := by decide

end Sys2Proof.Tests
end

section
/-! What a step fetches and executes: the turn of the empty inbox and of the move at its head, the instruction a turn
runs, and the step of the sequencer's turn (R15, R126). -/

namespace Sys2Proof.Machine

open Sys2Proof

variable {s t : State} {i : Instr} {m : Move} {rest : List Move}

/-- With no move waiting the turn is the engine's (log 2). -/
theorem fetch_of_inbox_nil (h : s.inbox = []) : fetch s = engineTurn s := by
  simp only [fetch, h]

/-- A move at the head of the inbox has the turn, and is taken from it. -/
theorem fetch_of_inbox_cons (h : s.inbox = m :: rest) : fetch s = turn m { s with inbox := rest } := by
  simp only [fetch, h]

/-- A turn that runs an instruction is `exec` of it, on the state the turn hands over. -/
theorem step_of_fetch_run (h : fetch s = .run i t) : step s = exec i t := by
  simp only [step, h]

/-- When the turn is the engine's, on `t`, and no access hangs, the step runs the instruction that PHASE names. -/
theorem step_of_fetch_engineTurn (hf : fetch s = engineTurn t) (hh : t.hung = false)
    (hd : decodePhase t.eng.phase = .ok i) : step s = exec i t :=
  step_of_fetch_run (hf.trans ((engineTurn_eq_run_iff t t i).2 ⟨hh, hd, rfl⟩))

/-- Settles O5: whether the inbox is empty or its head is the engine's move, the turn fetched is the engine's. -/
theorem stepRunsThePhase : Obligations.StepRunsThePhase := by
  unfold Obligations.StepRunsThePhase
  constructor
  · rintro s i ⟨hinbox, hhung⟩ hdecode
    exact step_of_fetch_engineTurn (fetch_of_inbox_nil hinbox) hhung hdecode
  · intro s i rest hinbox hhung hdecode
    have hfetch : fetch s = engineTurn { s with inbox := rest } := fetch_of_inbox_cons hinbox
    exact step_of_fetch_engineTurn hfetch hhung hdecode

end Sys2Proof.Machine
end

section
/-! What an instruction that answers a next state has done, one inversion lemma per instruction (the laws of the meanings,
read backwards); what a decoded command or phase code is; what no instruction touches. -/

namespace Sys2Proof.Machine

open Sys2Proof

variable {s t : State} {i : Instr}

/-! ### What the two decoders answer -/

/-- The commands are NOP, READ and ACK (R123). -/
theorem decodeCommand_cases {w : Word} (h : decodeCommand w = .ok i) :
    i = .nop ∨ (∃ type bank pin, i = .read type bank pin) ∨ i = .ack := by
  unfold decodeCommand at h
  split_ifs at h <;> cases h
  · exact .inl rfl
  · exact .inr (.inl ⟨_, _, _, rfl⟩)
  · exact .inr (.inr rfl)

/-- A phase code that decodes is the code of its micro-operation (R125). -/
theorem decodePhase_eq_ok {c : BitVec 4} (h : decodePhase c = .ok i) :
    i.form = .phase ∧ c = (encodeWord i).setWidth 4 := by
  unfold decodePhase at h
  split at h
  case h_13 => cases h
  all_goals cases h; exact ⟨rfl, BitVec.eq_of_toNat_eq ‹_›⟩

/-- The codes up to SCALE all decode (R125, R127). -/
theorem decodePhase_of_le_scale {c : BitVec 4} (h : c ≤ Phase.scale) : ∃ i, decodePhase c = .ok i := by
  have named : ∀ c : BitVec 4, c ≤ Phase.scale → (decodePhase c).toOption.isSome = true := by decide
  cases hd : decodePhase c with
  | ok i => exact ⟨i, rfl⟩
  | error e => simpa [hd, Except.toOption] using named c h

/-! ### Inversion, instruction by instruction -/

theorem exec_read_cases {type : Variant} {bank pin : Nat} (h : exec (.read type bank pin) s = .next t) :
    t = s ∨ (s.eng.busy = false ∧ t = s.acceptRead type (argByte bank) (argByte pin)) := by
  cases hb : s.eng.busy with
  | true => rw [exec_read_ignored _ _ _ hb] at h; cases h; exact .inl rfl
  | false => rw [exec_read_accepted _ _ _ hb] at h; cases h; exact .inr ⟨rfl, rfl⟩

theorem exec_ack_cases (h : exec .ack s = .next t) : t = s ∨ (s.eng.busy = false ∧ t = s.acknowledge) := by
  cases hb : s.eng.busy with
  | true => rw [exec_ack_busy hb] at h; cases h; exact .inl rfl
  | false => rw [exec_ack_idle hb] at h; cases h; exact .inr ⟨rfl, rfl⟩

theorem exec_acquire_cases (h : exec .acquire s = .next t) :
    (s.pinBank = none ∧ t = s.complete .invalidArgument) ∨
    ∃ b, s.pinBank = some b ∧ ((s.eng.mapped[b] = true ∧ t = s.goto Phase.hsHigh) ∨
      (s.eng.mapped[b] = false ∧ t = s.acquireBank b)) := by
  cases hp : s.pinBank with
  | none => rw [exec_acquire_invalid hp] at h; cases h; exact .inl ⟨rfl, rfl⟩
  | some b =>
    refine .inr ⟨b, rfl, ?_⟩
    cases hm : s.eng.mapped[b] with
    | true => rw [exec_acquire_cached hp hm] at h; cases h; exact .inl ⟨rfl, rfl⟩
    | false =>
      cases hw : s.answerMissing with
      | true => rw [exec_acquire_waits hp hm hw] at h; cases h
      | false => rw [exec_acquire_asks hp hm hw] at h; cases h; exact .inr ⟨rfl, rfl⟩

/-- A phase that accesses the pin answers only when the latches name one (R90; log 14). -/
theorem pinBank_of_exec_pin_phase
    (hi : i = .hsHigh ∨ i = .hsLow ∨ i = .release ∨ i = .await ∨ i = .capLow ∨ i = .capHigh)
    (h : exec i s = .next t) : ∃ b, s.pinBank = some b := by
  cases hp : s.pinBank with
  | none => rw [exec_pin_phase_fault i hi hp] at h; cases h
  | some b => exact ⟨b, rfl⟩

theorem exec_hsHigh_cases (h : exec .hsHigh s = .next t) :
    ∃ b, s.pinBank = some b ∧ t = (((s.dirOut b).levelHigh b).waitMs Config.hsHighMs).goto Phase.hsLow := by
  obtain ⟨b, hp⟩ := pinBank_of_exec_pin_phase (by simp) h
  rw [exec_hsHigh hp] at h; cases h
  exact ⟨b, hp, rfl⟩

theorem exec_hsLow_cases (h : exec .hsLow s = .next t) :
    ∃ b, s.pinBank = some b ∧ t = ((s.levelLow b).waitMs Config.hsLowMs).goto Phase.release := by
  obtain ⟨b, hp⟩ := pinBank_of_exec_pin_phase (by simp) h
  rw [exec_hsLow hp] at h; cases h
  exact ⟨b, hp, rfl⟩

theorem exec_release_cases (h : exec .release s = .next t) :
    ∃ b, s.pinBank = some b ∧ t = (s.dirIn b).goto Phase.await := by
  obtain ⟨b, hp⟩ := pinBank_of_exec_pin_phase (by simp) h
  rw [exec_release hp] at h; cases h
  exact ⟨b, hp, rfl⟩

theorem exec_await_cases (h : exec .await s = .next t) :
    ∃ b, s.pinBank = some b ∧ (t = (s.poll b).countAwait ∨ t = (s.poll b).startCapture) := by
  obtain ⟨b, hp⟩ := pinBank_of_exec_pin_phase (by simp) h
  refine ⟨b, hp, ?_⟩
  cases hl : s.datainWord.getLsbD s.eng.argPin.toNat with
  | true => rw [exec_await_high hp hl] at h; cases h; exact .inl rfl
  | false => rw [exec_await_low hp hl] at h; cases h; exact .inr rfl

theorem exec_capLow_cases (h : exec .capLow s = .next t) :
    ∃ b, s.pinBank = some b ∧
      (t = (s.poll b).countPulse (lowSlot s.eng.pair) ∨ t = (s.poll b).goto Phase.capHigh) := by
  obtain ⟨b, hp⟩ := pinBank_of_exec_pin_phase (by simp) h
  refine ⟨b, hp, ?_⟩
  cases hl : s.datainWord.getLsbD s.eng.argPin.toNat with
  | true => rw [exec_capLow_high hp hl] at h; cases h; exact .inr rfl
  | false => rw [exec_capLow_low hp hl] at h; cases h; exact .inl rfl

theorem exec_capHigh_cases (h : exec .capHigh s = .next t) :
    ∃ b, s.pinBank = some b ∧
      (t = (s.poll b).countPulse (highSlot s.eng.pair) ∨ t = (s.poll b).endPair) := by
  obtain ⟨b, hp⟩ := pinBank_of_exec_pin_phase (by simp) h
  refine ⟨b, hp, ?_⟩
  cases hl : s.datainWord.getLsbD s.eng.argPin.toNat with
  | true => rw [exec_capHigh_high hp hl] at h; cases h; exact .inl rfl
  | false => rw [exec_capHigh_low hp hl] at h; cases h; exact .inr rfl

theorem exec_check_cases (h : exec .check s = .next t) :
    (s.eng.raw[4] = s.eng.checksum ∧ t = s.goto Phase.scale) ∨
    (s.eng.raw[4] ≠ s.eng.checksum ∧ t = s.complete .checksumMismatch) := by
  by_cases hc : s.eng.raw[4] = s.eng.checksum
  · rw [exec_check_match hc] at h; cases h; exact .inl ⟨hc, rfl⟩
  · rw [exec_check_mismatch hc] at h; cases h; exact .inr ⟨hc, rfl⟩

theorem exec_scale_cases (h : exec .scale s = .next t) :
    t = s.scaleA.complete .success ∨ t = s.scaleB.complete .success := by
  cases ht : s.eng.argType with
  | a => rw [exec_scale_a ht] at h; cases h; exact .inl rfl
  | b => rw [exec_scale_b ht] at h; cases h; exact .inr rfl

/-! ### The counting loops and the end of a pair, as one alternative each -/

/-- A counted pulse stays below the ceiling, or is a timeout at it (R204, R206, R208). -/
theorem countPulse_eng_cases (s : State) (k : Fin 82) :
    (¬Config.ceil ≤ (s.eng.pulse[k] + 1).toNat ∧ (s.countPulse k).eng = (s.bumpPulse k).eng) ∨
    (Config.ceil ≤ (s.eng.pulse[k] + 1).toNat ∧ (s.countPulse k).eng = ((s.bumpPulse k).complete .timeout).eng) := by
  by_cases h : Config.ceil ≤ (s.eng.pulse[k] + 1).toNat
  · exact .inr ⟨h, countPulse_eng_ceiling s k h⟩
  · exact .inl ⟨h, countPulse_eng_below s k h⟩

/-- A counted AWAIT poll stays below the ceiling, or is a timeout at it (R201, R208). -/
theorem countAwait_eng_cases (s : State) :
    (¬Config.ceil ≤ (s.eng.awaitCount + 1).toNat ∧ s.countAwait.eng = s.bumpAwait.eng) ∨
    (Config.ceil ≤ (s.eng.awaitCount + 1).toNat ∧ s.countAwait.eng = (s.bumpAwait.complete .timeout).eng) := by
  by_cases h : Config.ceil ≤ (s.eng.awaitCount + 1).toNat
  · exact .inr ⟨h, countAwait_eng_ceiling s h⟩
  · exact .inl ⟨h, countAwait_eng_below s h⟩

/-- A pair ends in CAP_LOW of another pair, or with the window closed in THRESH (R206). -/
theorem endPair_eng_cases (s : State) :
    (∃ k : Fin 41, s.endPair.eng = { s.eng with pair := k, phase := Phase.capLow }) ∨
    s.endPair.eng = { s.eng with crit := false, phase := Phase.thresh } := by
  by_cases h : s.eng.pair.val < 40
  · refine .inl ⟨⟨s.eng.pair.val + 1, by omega⟩, ?_⟩
    rw [endPair_eng_next s h]
  · right
    rw [endPair_eng_last s h]

/-! ### What the handshake phases leave of the engine -/

theorem exec_hsHigh_eng (h : exec .hsHigh s = .next t) :
    ∃ cnt hold, t.eng = { s.eng with waitCnt := cnt, oeHold := hold, phase := Phase.hsLow } := by
  obtain ⟨b, -, rfl⟩ := exec_hsHigh_cases h
  obtain ⟨heng, -⟩ := dirOut_spec s b
  exact ⟨Config.waitCnt (s.draws + 2), Config.oeHold (s.draws + 1), by simp [levelHigh_spec, heng, dirOut_spec]⟩

theorem exec_hsLow_eng (h : exec .hsLow s = .next t) :
    ∃ cnt, t.eng = { s.eng with waitCnt := cnt, phase := Phase.release } := by
  obtain ⟨b, -, rfl⟩ := exec_hsLow_cases h
  exact ⟨_, rfl⟩

theorem exec_release_eng (h : exec .release s = .next t) :
    ∃ hold, t.eng = { s.eng with oeHold := hold, phase := Phase.await } := by
  obtain ⟨b, -, rfl⟩ := exec_release_cases h
  exact ⟨_, rfl⟩

/-! ### What no instruction touches -/

/-- No instruction takes a move, answers the host, or makes or ends a hang (R15, R84). -/
theorem exec_sameAround (h : exec i s = .next t) : s.sameAround t := by
  cases i with
  | nop => cases h; exact ⟨rfl, rfl, rfl⟩
  | read type bank pin => obtain rfl | ⟨-, rfl⟩ := exec_read_cases h <;> exact ⟨rfl, rfl, rfl⟩
  | ack => obtain rfl | ⟨-, rfl⟩ := exec_ack_cases h <;> exact ⟨rfl, rfl, rfl⟩
  | idle => cases h; exact ⟨rfl, rfl, rfl⟩
  | acquire =>
    obtain ⟨-, rfl⟩ | ⟨b, -, ⟨-, rfl⟩ | ⟨-, rfl⟩⟩ := exec_acquire_cases h
    · exact ⟨rfl, rfl, rfl⟩
    · exact ⟨rfl, rfl, rfl⟩
    · obtain ⟨-, hhung, hreply, hinbox, -⟩ := acquireBank_frame s b
      exact ⟨hinbox, hreply, hhung⟩
  | hsHigh =>
    obtain ⟨b, -, rfl⟩ := exec_hsHigh_cases h
    obtain ⟨hhung, hreply, hinbox, -⟩ := dir_frame s b
    exact ⟨hinbox, hreply, hhung⟩
  | hsLow => obtain ⟨b, -, rfl⟩ := exec_hsLow_cases h; exact ⟨rfl, rfl, rfl⟩
  | release => obtain ⟨b, -, rfl⟩ := exec_release_cases h; exact ⟨rfl, rfl, rfl⟩
  | await =>
    obtain ⟨b, -, rfl | rfl⟩ := exec_await_cases h
    · obtain ⟨-, -, hhung, hreply, hinbox, -⟩ := countAwait_frame (s.poll b)
      exact ⟨hinbox, hreply, hhung⟩
    · exact ⟨rfl, rfl, rfl⟩
  | capLow =>
    obtain ⟨b, -, rfl | rfl⟩ := exec_capLow_cases h
    · obtain ⟨-, -, hhung, hreply, hinbox, -⟩ := countPulse_frame (s.poll b) (lowSlot s.eng.pair)
      exact ⟨hinbox, hreply, hhung⟩
    · exact ⟨rfl, rfl, rfl⟩
  | capHigh =>
    obtain ⟨b, -, rfl | rfl⟩ := exec_capHigh_cases h
    · obtain ⟨-, -, hhung, hreply, hinbox, -⟩ := countPulse_frame (s.poll b) (highSlot s.eng.pair)
      exact ⟨hinbox, hreply, hhung⟩
    · obtain ⟨-, -, hhung, hreply, hinbox, -⟩ := endPair_frame (s.poll b)
      exact ⟨hinbox, hreply, hhung⟩
  | thresh => cases h; exact ⟨rfl, rfl, rfl⟩
  | decode => cases h; exact ⟨rfl, rfl, rfl⟩
  | check => obtain ⟨-, rfl⟩ | ⟨-, rfl⟩ := exec_check_cases h <;> exact ⟨rfl, rfl, rfl⟩
  | scale => obtain rfl | rfl := exec_scale_cases h <;> exact ⟨rfl, rfl, rfl⟩

end Sys2Proof.Machine
end

section
/-! The invariant of R59: what a read in progress and a read past ACQUIRE keep, how completion ends them, and that every
instruction and every move keeps the whole invariant. -/

namespace Sys2Proof.Machine

open Sys2Proof

variable {s t : State} {e : Engine} {i : Instr}

/-! ### A read in progress -/

/-- What holds of a read in progress whatever its phase: the clauses of `Engine.Legal` that BUSY decides. -/
structure Engine.Reading (e : Engine) : Prop where
  busy : e.busy = true
  notDone : e.done = false
  noOutcome : e.outcome = .none
  zero : e.resultsZero
  belowCeil : ∀ c ∈ e.counters, c < Config.ceil
  thresholdBounded : e.threshold ≤ 31999

/-- What holds of a read past ACQUIRE whatever its phase: its pin is acquired and no request is pending. -/
structure Engine.Acquired (e : Engine) : Prop extends Engine.Reading e where
  pin : ∃ b : Fin 4, e.argBank.toNat = b.val ∧ e.argPin.toNat < 32 ∧ e.mapped[b] = true
  noRequest : e.acqPending = false

/-- The phases from HS_HIGH on are not IDLE (R125). -/
theorem ne_idle_of_hsHigh_le {p : BitVec 4} (h : Phase.hsHigh ≤ p) : p ≠ Phase.idle := by
  rintro rfl
  exact absurd h (by decide)

/-- No counter is at the ceiling while all are below it. -/
theorem count_ceil_of_below {l : List Nat} (h : ∀ c ∈ l, c < Config.ceil) : l.count Config.ceil = 0 :=
  List.count_eq_zero.2 fun hmem => absurd (h _ hmem) (by decide)

/-- Of a legal engine that is not in TIMEOUT every counter is below the ceiling (R59 (g)). -/
theorem Engine.Legal.belowCeil (h : e.Legal) (ho : e.outcome ≠ .timeout) : ∀ c ∈ e.counters, c < Config.ceil := by
  intro c hc
  have hcount := h.ceilingIffTimeout
  rw [if_neg ho, List.count_eq_zero] at hcount
  exact lt_of_le_of_ne (h.countersBounded c hc) fun heq => hcount (heq ▸ hc)

/-- A legal engine outside IDLE has a read in progress. -/
theorem Engine.Legal.reading (h : e.Legal) (hp : e.phase ≠ Phase.idle) : e.Reading := by
  have hbusy : e.busy = true := by
    rw [← Bool.not_eq_false, h.idleIffNotBusy]
    exact hp
  have hnone := h.busyNoOutcome hbusy
  exact ⟨hbusy, h.busyNotDone hbusy, hnone, h.busyIsZero hbusy, h.belowCeil (by simp [hnone]), h.thresholdBounded⟩

/-- From HS_HIGH on a legal engine has its pin and no request. -/
theorem Engine.Legal.acquired (h : e.Legal) (hp : Phase.hsHigh ≤ e.phase) : e.Acquired := by
  refine { h.reading (ne_idle_of_hsHigh_le hp) with pin := h.pinAcquired hp, noRequest := ?_ }
  rw [← Bool.not_eq_true]
  intro hq
  rw [(h.pendingInAcquire hq).1] at hp
  exact absurd hp (by decide)

/-- A read in ACQUIRE with its window closed is legal when a pending request is for an uncached bank (R170, R171). -/
theorem Engine.Reading.legal_in_acquire (r : e.Reading) (hp : e.phase = Phase.acquire) (hc : e.crit = false)
    (hq : e.acqPending = true → ∃ b : Fin 4, e.argBank.toNat = b.val ∧ e.argPin.toNat < 32 ∧ e.mapped[b] = false) :
    e.Legal where
  idleIffNotBusy := by simp [r.busy, hp]
  busyNotDone _ := r.notDone
  critIffCapture := by simp [hc, hp]
  doneHasOutcome := by simp [r.notDone]
  successIsClean := by simp [r.noOutcome]
  failureIsZero := by simp [r.noOutcome]
  countersBounded c hc := (r.belowCeil c hc).le
  ceilingIffTimeout := by simp [count_ceil_of_below r.belowCeil, r.noOutcome]
  phaseNamed := by rw [hp]; decide
  busyNoOutcome _ := r.noOutcome
  busyIsZero _ := r.zero
  pinAcquired := by rw [hp]; exact fun h => absurd h (by decide)
  pendingInAcquire h := ⟨hp, hq h⟩
  scaleChecked := by rw [hp]; exact fun h => absurd h (by decide)
  thresholdBounded := r.thresholdBounded

/-- A read past ACQUIRE is legal in every phase from HS_HIGH on whose window and checksum are right. -/
theorem Engine.Acquired.legal (a : e.Acquired) (hlo : Phase.hsHigh ≤ e.phase) (hhi : e.phase ≤ Phase.scale)
    (hc : e.crit = true ↔ (e.phase = Phase.capLow ∨ e.phase = Phase.capHigh))
    (hs : e.phase = Phase.scale → e.checksumMatches) : e.Legal where
  idleIffNotBusy := by
    simpa [a.busy] using ne_idle_of_hsHigh_le hlo
  busyNotDone _ := a.notDone
  critIffCapture := hc
  doneHasOutcome := by simp [a.notDone]
  successIsClean := by simp [a.noOutcome]
  failureIsZero := by simp [a.noOutcome]
  countersBounded c hc := (a.belowCeil c hc).le
  ceilingIffTimeout := by simp [count_ceil_of_below a.belowCeil, a.noOutcome]
  phaseNamed := hhi
  busyNoOutcome _ := a.noOutcome
  busyIsZero _ := a.zero
  pinAcquired _ := a.pin
  pendingInAcquire h := by simp [a.noRequest] at h
  scaleChecked := hs
  thresholdBounded := a.thresholdBounded

/-! ### Completion -/

/-- A completion is legal when what it leaves fits its code (R59 (d) to (g), R275). -/
theorem legal_complete {code : ReadOutcome} (hcode : code ≠ .none)
    (hclean : code = .success → s.eng.checksumMatches) (hzero : code ≠ .success → s.eng.resultsZero)
    (hbound : ∀ c ∈ s.eng.counters, c ≤ Config.ceil)
    (hcount : s.eng.counters.count Config.ceil = if code = .timeout then 1 else 0)
    (hthr : s.eng.threshold ≤ 31999) (hq : s.eng.acqPending = false) : (s.complete code).eng.Legal where
  idleIffNotBusy := by simp
  busyNotDone h := by simp at h
  critIffCapture := by simp
  doneHasOutcome _ := hcode
  successIsClean h := ⟨if_pos h, hclean h⟩
  failureIsZero _ h := hzero h
  countersBounded := hbound
  ceilingIffTimeout := hcount
  phaseNamed := by simp
  busyNoOutcome h := by simp at h
  busyIsZero h := by simp at h
  pinAcquired h := absurd h (by simp)
  pendingInAcquire h := by simp [hq] at h
  scaleChecked h := absurd h (by simp)
  thresholdBounded := hthr

/-- A read with no request pending may fail with any code but TIMEOUT, which needs its counter. -/
theorem Engine.Reading.legal_fail (r : s.eng.Reading) (hq : s.eng.acqPending = false) {code : ReadOutcome}
    (hcode : code ≠ .none) (hs : code ≠ .success) (ht : code ≠ .timeout) : (s.complete code).eng.Legal :=
  legal_complete hcode (fun h => absurd h hs) (fun _ => r.zero) (fun c hc => (r.belowCeil c hc).le)
    (by rw [if_neg ht]; exact count_ceil_of_below r.belowCeil) r.thresholdBounded hq

/-! ### Counting -/

theorem counters_bumpAwait (s : State) :
    s.bumpAwait.eng.counters = s.eng.counters.set 0 (s.eng.awaitCount + 1).toNat := rfl

theorem counters_bumpPulse (s : State) (k : Fin 82) :
    (s.bumpPulse k).eng.counters = s.eng.counters.set (k.val + 1) (s.eng.pulse[k] + 1).toNat := by
  simp [Engine.counters, Vector.toList_set, List.map_set]

theorem awaitCount_mem_counters (e : Engine) : e.awaitCount.toNat ∈ e.counters := List.mem_cons_self

theorem pulse_mem_counters (e : Engine) (k : Fin 82) : e.pulse[k].toNat ∈ e.counters := by
  refine List.mem_cons_of_mem _ (List.mem_map_of_mem ?_)
  simp

/-- One counter of a list below the ceiling put at the ceiling is the only one there. -/
theorem count_ceil_set {l : List Nat} {k : Nat} (h : ∀ c ∈ l, c < Config.ceil) (hk : k < l.length) :
    (l.set k Config.ceil).count Config.ceil = 1 := by
  have hne : l[k] ≠ Config.ceil := (h _ (List.getElem_mem hk)).ne
  rw [List.count_set hk, count_ceil_of_below h]
  simp [hne]

/-- A counter below the ceiling goes up by one without wrapping, to the ceiling at most (log 22). -/
theorem toNat_add_one_le_ceil {x : BitVec 16} (h : x.toNat < Config.ceil) : (x + 1).toNat ≤ Config.ceil := by
  have hx : (x + 1).toNat = (x.toNat + 1) % 65536 := by simp
  simp only [Config.ceil] at h ⊢
  omega

/-- When the read `e` has counted its counter `k` up to `v`, which gives `e'`, every counter is still below the ceiling
unless `v` has reached it, and then `k` alone is there. -/
theorem Engine.Reading.counters_set {e e' : Engine} (r : e.Reading) {k v : Nat}
    (hset : e'.counters = e.counters.set k v) (hk : k < e.counters.length) (hv : v ≤ Config.ceil) :
    (¬Config.ceil ≤ v → ∀ c ∈ e'.counters, c < Config.ceil) ∧
    (Config.ceil ≤ v → (∀ c ∈ e'.counters, c ≤ Config.ceil) ∧ e'.counters.count Config.ceil = 1) := by
  have hmem : ∀ c ∈ e'.counters, c < Config.ceil ∨ c = v := by
    intro c hc
    rw [hset] at hc
    exact (List.mem_or_eq_of_mem_set hc).imp_left (r.belowCeil c)
  constructor
  · intro hlt c hc
    obtain h | rfl := hmem c hc
    · exact h
    · exact not_le.1 hlt
  · intro hge
    obtain rfl : v = Config.ceil := le_antisymm hv hge
    refine ⟨fun c hc => (hmem c hc).elim le_of_lt le_of_eq, ?_⟩
    rw [hset]
    exact count_ceil_set r.belowCeil hk

/-- A read `e` that has counted its counter `k` up to the ceiling may time out in the state `s` this leaves (R59 (g),
R208). -/
theorem Engine.Reading.legal_timeout (r : e.Reading) {k v : Nat} (hset : s.eng.counters = e.counters.set k v)
    (hk : k < e.counters.length) (hv : v ≤ Config.ceil) (hge : Config.ceil ≤ v) (hzero : s.eng.resultsZero)
    (hthr : s.eng.threshold ≤ 31999) (hq : s.eng.acqPending = false) : (s.complete .timeout).eng.Legal := by
  obtain ⟨hbound, hone⟩ := (r.counters_set hset hk hv).2 hge
  exact legal_complete (by decide) (by simp) (fun _ => hzero) hbound (by simpa using hone) hthr hq

/-- Counting an AWAIT poll of a legal read (R201, R208). -/
theorem legal_countAwait (h : s.eng.Legal) (hp : s.eng.phase = Phase.await) : s.countAwait.eng.Legal := by
  have a := h.acquired (by rw [hp]; decide)
  have hv := toNat_add_one_le_ceil (a.belowCeil _ (awaitCount_mem_counters s.eng))
  have hk : 0 < s.eng.counters.length := Nat.succ_pos _
  obtain ⟨hlt, heng⟩ | ⟨hge, heng⟩ := countAwait_eng_cases s
  · rw [heng]
    have hbelow := (a.counters_set (counters_bumpAwait s) hk hv).1 hlt
    have a' : s.bumpAwait.eng.Acquired := { a with belowCeil := hbelow }
    exact a'.legal (by rw [s.bumpAwait_eng, hp]; decide) h.phaseNamed h.critIffCapture h.scaleChecked
  · rw [heng]
    exact a.legal_timeout (counters_bumpAwait s) hk hv hge a.zero a.thresholdBounded a.noRequest

/-- Counting a pulse of a legal read (R204, R206, R208). -/
theorem legal_countPulse (h : s.eng.Legal) (hp : Phase.hsHigh ≤ s.eng.phase) (k : Fin 82) :
    (s.countPulse k).eng.Legal := by
  have a := h.acquired hp
  have hv := toNat_add_one_le_ceil (a.belowCeil _ (pulse_mem_counters s.eng k))
  have hk : k.val + 1 < s.eng.counters.length := by simp [Engine.counters]; omega
  obtain ⟨hlt, heng⟩ | ⟨hge, heng⟩ := countPulse_eng_cases s k
  · rw [heng]
    have hbelow := (a.counters_set (counters_bumpPulse s k) hk hv).1 hlt
    have a' : (s.bumpPulse k).eng.Acquired := { a with belowCeil := hbelow }
    exact a'.legal hp h.phaseNamed h.critIffCapture h.scaleChecked
  · rw [heng]
    exact a.legal_timeout (counters_bumpPulse s k) hk hv hge a.zero a.thresholdBounded a.noRequest

/-! ### The threshold -/

/-- The mean of forty counters below the ceiling is at most 31999 (R34, R231). -/
theorem Engine.Reading.meanHigh_le (r : e.Reading) : e.meanHigh ≤ 31999 := by
  have hsum : e.highSum ≤ 40 * 31999 := by
    have hle : ∀ x ∈ (List.finRange 40).map (fun q => (e.dataHigh q).toNat), x ≤ 31999 := by
      intro x hx
      obtain ⟨q, -, rfl⟩ := List.mem_map.1 hx
      exact Nat.le_of_lt_succ (r.belowCeil _ (pulse_mem_counters e _))
    simpa [Engine.highSum] using List.sum_le_card_nsmul _ _ hle
  have hmean : e.highSum / 40 ≤ 31999 := by omega
  rw [BitVec.le_def, Engine.meanHigh, BitVec.toNat_ofNat]
  exact (Nat.mod_le _ _).trans hmean

/-! ### The instructions -/

/-- Hidden registers have no part in legality (R44). -/
theorem Engine.Legal.hidden (h : e.Legal) (cnt gap : Nat) (hold : Word) :
    ({ e with waitCnt := cnt, pollGap := gap, oeHold := hold } : Engine).Legal := { h with }

/-- The window is closed outside CAP_LOW and CAP_HIGH (R59 (c)). -/
theorem Engine.Legal.windowClosed (h : e.Legal) (hl : e.phase ≠ Phase.capLow) (hh : e.phase ≠ Phase.capHigh) :
    e.crit = false := by
  rw [← Bool.not_eq_true, h.critIffCapture]
  exact not_or.2 ⟨hl, hh⟩

/-- READ on an idle legal engine begins a legal read (R151). -/
theorem legal_acceptRead (h : s.eng.Legal) (hb : s.eng.busy = false) (type : Variant) (bank pin : BitVec 8) :
    (s.acceptRead type bank pin).eng.Legal := by
  have r : (s.acceptRead type bank pin).eng.Reading :=
    { busy := rfl, notDone := rfl, noOutcome := rfl, zero := ⟨rfl, rfl, rfl⟩, thresholdBounded := by simp
      belowCeil := by simp [Engine.counters, Vector.toList_replicate] }
  refine r.legal_in_acquire rfl rfl fun hq => ?_
  have hacq := (h.pendingInAcquire hq).1
  rw [h.idleIffNotBusy.1 hb] at hacq
  exact absurd hacq (by decide)

/-- ACK of an idle legal engine (R155). -/
theorem legal_acknowledge (h : s.eng.Legal) : s.acknowledge.eng.Legal :=
  { h with busyNotDone := fun _ => rfl, doneHasOutcome := fun hd => by simp at hd }

/-- In ACQUIRE a pending request is for the bank of the handle, which is not cached (R170, R171). -/
theorem Engine.Legal.requested_bank (h : s.eng.Legal) (hq : s.eng.acqPending = true) :
    ∃ b, s.pinBank = some b ∧ s.eng.mapped[b] = false := by
  obtain ⟨-, b, hb, hpin, hm⟩ := h.pendingInAcquire hq
  exact ⟨b, (pinBank_eq_some_iff s b).2 ⟨hb, hpin⟩, hm⟩

/-- ACQUIRE keeps legality on every branch of R183. -/
theorem legal_exec_acquire (h : s.eng.Legal) (hp : s.eng.phase = Phase.acquire) (he : exec .acquire s = .next t) :
    t.eng.Legal := by
  have r := h.reading (by rw [hp]; decide)
  have hcrit := h.windowClosed (by rw [hp]; decide) (by rw [hp]; decide)
  obtain ⟨hnone, rfl⟩ | ⟨b, hb, ⟨hm, rfl⟩ | ⟨hm, rfl⟩⟩ := exec_acquire_cases he
  · have hq : s.eng.acqPending = false := by
      rw [← Bool.not_eq_true]
      intro hq
      obtain ⟨b, hb, -⟩ := h.requested_bank hq
      simp [hnone] at hb
    exact r.legal_fail hq (by decide) (by decide) (by decide)
  · have hq : s.eng.acqPending = false := by
      rw [← Bool.not_eq_true]
      intro hq
      obtain ⟨c, hc, hmc⟩ := h.requested_bank hq
      obtain rfl : b = c := by simpa [hb] using hc
      simp [hm] at hmc
    obtain ⟨hbank, hpin⟩ := (pinBank_eq_some_iff s b).1 hb
    have a : (s.goto Phase.hsHigh).eng.Acquired := { r with pin := ⟨b, hbank, hpin, hm⟩, noRequest := hq }
    exact a.legal (by simp) (by simp) (by simp [hcrit]) (by simp)
  · obtain ⟨hbank, hpin⟩ := (pinBank_eq_some_iff s b).1 hb
    have ended : ({ s with eng := { s.eng with acqPending := false } } : State).eng.Reading := { r with }
    rw [acquireBank_eng]
    cases s.acqAnswer with
    | none =>
      have r' : ({ s.eng with acqPending := true } : Engine).Reading := { r with }
      exact r'.legal_in_acquire hp hcrit fun _ => ⟨b, hbank, hpin, hm⟩
    | some answer =>
      cases answer with
      | ok =>
        have a : ({ s.eng with
            acqPending := false, mapped := s.eng.mapped.set b true, phase := Phase.hsHigh } : Engine).Acquired :=
          { r with pin := ⟨b, hbank, hpin, by simp⟩, noRequest := rfl }
        exact a.legal (by simp) (by simp) (by simp [hcrit]) (by simp)
      | denied => exact ended.legal_fail rfl (code := .deviceAccessDenied) (by decide) (by decide) (by decide)
      | mapFailed => exact ended.legal_fail rfl (code := .mappingFailed) (by decide) (by decide) (by decide)
      | unavailable => exact ended.legal_fail rfl (code := .gpioUnavailable) (by decide) (by decide) (by decide)

/-- A read past ACQUIRE goes on legally in any phase before SCALE that does not capture, with its window closed. -/
theorem Engine.Acquired.legal_closed (a : e.Acquired) (hc : e.crit = false)
    (hp : e.phase = Phase.hsHigh ∨ e.phase = Phase.hsLow ∨ e.phase = Phase.release ∨ e.phase = Phase.await ∨
      e.phase = Phase.thresh ∨ e.phase = Phase.decode ∨ e.phase = Phase.check) : e.Legal := by
  have named : Phase.hsHigh ≤ e.phase ∧ e.phase ≤ Phase.scale ∧ e.phase ≠ Phase.scale ∧
      e.phase ≠ Phase.capLow ∧ e.phase ≠ Phase.capHigh := by
    obtain hp | hp | hp | hp | hp | hp | hp := hp <;> rw [hp] <;> decide
  obtain ⟨hlo, hhi, hs, hl, hh⟩ := named
  refine a.legal hlo hhi ?_ (absurd · hs)
  rw [hc]
  exact ⟨nofun, (·.elim (absurd · hl) (absurd · hh))⟩

/-- HS_HIGH, HS_LOW and RELEASE change the phase and hidden registers only (R184 to R186). -/
theorem legal_exec_handshake (h : s.eng.Legal) (hi : i = .hsHigh ∨ i = .hsLow ∨ i = .release)
    (hd : decodePhase s.eng.phase = .ok i) (he : exec i s = .next t) : t.eng.Legal := by
  have hcode := (decodePhase_eq_ok hd).2
  have a : s.eng.Acquired := h.acquired (by rw [hcode]; rcases hi with rfl | rfl | rfl <;> decide)
  have hcrit : s.eng.crit = false := by
    refine h.windowClosed ?_ ?_ <;> rw [hcode] <;> rcases hi with rfl | rfl | rfl <;> decide
  rcases hi with rfl | rfl | rfl
  · obtain ⟨cnt, hold, heng⟩ := exec_hsHigh_eng he
    rw [heng]
    exact Engine.Acquired.legal_closed { a with } hcrit (by simp)
  · obtain ⟨cnt, heng⟩ := exec_hsLow_eng he
    rw [heng]
    exact Engine.Acquired.legal_closed { a with } hcrit (by simp)
  · obtain ⟨hold, heng⟩ := exec_release_eng he
    rw [heng]
    exact Engine.Acquired.legal_closed { a with } hcrit (by simp)

theorem legal_exec_await (h : s.eng.Legal) (hp : s.eng.phase = Phase.await) (he : exec .await s = .next t) :
    t.eng.Legal := by
  obtain ⟨b, -, rfl | rfl⟩ := exec_await_cases he
  · exact legal_countAwait (h.hidden _ _ _) hp
  · have a := h.acquired (by rw [hp]; decide)
    have a' : (s.poll b).startCapture.eng.Acquired := { a with }
    exact a'.legal (by simp) (by simp) (by simp) (by simp)

theorem legal_exec_capLow (h : s.eng.Legal) (hp : s.eng.phase = Phase.capLow) (he : exec .capLow s = .next t) :
    t.eng.Legal := by
  obtain ⟨b, -, rfl | rfl⟩ := exec_capLow_cases he
  · exact legal_countPulse (s := s.poll b) (h.hidden _ _ _) (by simp [hp]) _
  · have a := h.acquired (by rw [hp]; decide)
    have hcrit : s.eng.crit = true := h.critIffCapture.2 (.inl hp)
    have a' : ((s.poll b).goto Phase.capHigh).eng.Acquired := { a with }
    exact a'.legal (by simp) (by simp) (by simp [hcrit]) (by simp)

theorem legal_exec_capHigh (h : s.eng.Legal) (hp : s.eng.phase = Phase.capHigh) (he : exec .capHigh s = .next t) :
    t.eng.Legal := by
  obtain ⟨b, -, rfl | rfl⟩ := exec_capHigh_cases he
  · exact legal_countPulse (s := s.poll b) (h.hidden _ _ _) (by simp [hp]) _
  · have a := h.acquired (by rw [hp]; decide)
    have hcrit : s.eng.crit = true := h.critIffCapture.2 (.inr hp)
    obtain ⟨k, heng⟩ | heng := endPair_eng_cases (s.poll b)
    · have a' : (s.poll b).endPair.eng.Acquired := by rw [heng]; exact { a with }
      exact a'.legal (by simp [heng]) (by simp [heng]) (by simp [heng, hcrit]) (by simp [heng])
    · have a' : (s.poll b).endPair.eng.Acquired := by rw [heng]; exact { a with }
      exact a'.legal_closed (by simp [heng]) (by simp [heng])

/-- THRESH computes a threshold within its bound and goes on (R231, R34). -/
theorem legal_exec_thresh (h : s.eng.Legal) (hp : s.eng.phase = Phase.thresh) (he : exec .thresh s = .next t) :
    t.eng.Legal := by
  have a := h.acquired (by rw [hp]; decide)
  have hcrit := h.windowClosed (by rw [hp]; decide) (by rw [hp]; decide)
  cases he
  exact Engine.Acquired.legal_closed { a with thresholdBounded := a.meanHigh_le } hcrit (by simp)

theorem legal_exec_decode (h : s.eng.Legal) (hp : s.eng.phase = Phase.decode) (he : exec .decode s = .next t) :
    t.eng.Legal := by
  have a := h.acquired (by rw [hp]; decide)
  have hcrit := h.windowClosed (by rw [hp]; decide) (by rw [hp]; decide)
  cases he
  exact Engine.Acquired.legal_closed { a with } hcrit (by simp)

theorem legal_exec_check (h : s.eng.Legal) (hp : s.eng.phase = Phase.check) (he : exec .check s = .next t) :
    t.eng.Legal := by
  have a := h.acquired (by rw [hp]; decide)
  have hcrit := h.windowClosed (by rw [hp]; decide) (by rw [hp]; decide)
  obtain ⟨hmatch, rfl⟩ | ⟨-, rfl⟩ := exec_check_cases he
  · have a' : (s.goto Phase.scale).eng.Acquired := { a with }
    exact a'.legal (by simp) (by simp) (by simp [hcrit]) (fun _ => hmatch)
  · exact a.legal_fail a.noRequest (by decide) (by decide) (by decide)

/-- SCALE ends the read with SUCCESS on bytes whose checksum matched (R240, R272). -/
theorem legal_exec_scale (h : s.eng.Legal) (hp : s.eng.phase = Phase.scale) (he : exec .scale s = .next t) :
    t.eng.Legal := by
  have a := h.acquired (by rw [hp]; decide)
  have hmatch := h.scaleChecked hp
  have hcount : s.eng.counters.count Config.ceil = if ReadOutcome.success = .timeout then 1 else 0 :=
    count_ceil_of_below a.belowCeil
  obtain rfl | rfl := exec_scale_cases he <;>
    exact legal_complete (by decide) (fun _ => hmatch) (absurd rfl ·) h.countersBounded hcount h.thresholdBounded
      a.noRequest

/-- The micro-operation that PHASE names keeps legality. -/
theorem legal_exec_phase (h : s.eng.Legal) (hd : decodePhase s.eng.phase = .ok i) (he : exec i s = .next t) :
    t.eng.Legal := by
  obtain ⟨hform, hp⟩ := decodePhase_eq_ok hd
  cases i with
  | nop => cases hform
  | read type bank pin => cases hform
  | ack => cases hform
  | idle => cases he; exact h
  | acquire => exact legal_exec_acquire h hp he
  | hsHigh => exact legal_exec_handshake h (by simp) hd he
  | hsLow => exact legal_exec_handshake h (by simp) hd he
  | release => exact legal_exec_handshake h (by simp) hd he
  | await => exact legal_exec_await h hp he
  | capLow => exact legal_exec_capLow h hp he
  | capHigh => exact legal_exec_capHigh h hp he
  | thresh => exact legal_exec_thresh h hp he
  | decode => exact legal_exec_decode h hp he
  | check => exact legal_exec_check h hp he
  | scale => exact legal_exec_scale h hp he

/-- A command keeps legality, busy or not (R150 to R155). -/
theorem legal_exec_command {w : Word} (h : s.eng.Legal) (hd : decodeCommand w = .ok i) (he : exec i s = .next t) :
    t.eng.Legal := by
  obtain rfl | ⟨type, bank, pin, rfl⟩ | rfl := decodeCommand_cases hd
  · cases he; exact h
  · obtain rfl | ⟨hb, rfl⟩ := exec_read_cases he
    · exact h
    · exact legal_acceptRead h hb _ _ _
  · obtain rfl | ⟨-, rfl⟩ := exec_ack_cases he
    · exact h
    · exact legal_acknowledge h

/-! ### Resets, and the whole machine -/

/-- The reset engine meets every clause of the invariant (R58, R59). -/
theorem legal_engineReset : Engine.reset.Legal := by
  constructor <;> decide

/-- On an idle engine of a legal machine nothing hangs: IDLE issues no access (R279; log 18). -/
theorem State.Legal.not_hung_of_idle (h : s.Legal) (hb : s.eng.busy = false) : s.hung = false := by
  rw [← Bool.not_eq_true]
  intro hh
  have hacc := h.hungInAccess hh
  rw [h.engine.idleIffNotBusy.1 hb] at hacc
  exact absurd hacc (by decide)

/-- Legality depends neither on the moves to come nor on the last reply. -/
theorem State.Legal.with_inbox_reply (h : s.Legal) (inbox : List Move) (reply : Option HostReply) :
    ({ s with inbox := inbox, reply := reply } : State).Legal := ⟨h.engine, h.hungInAccess⟩

/-- A command leaves a hung access as it finds it: none on an idle engine, and a busy engine is kept (R152, R155). -/
theorem hung_exec_command {w : Word} (h : s.Legal) (hd : decodeCommand w = .ok i) (he : exec i s = .next t)
    (hh : t.hung = true) : accessPhase t.eng.phase = true := by
  rw [(exec_sameAround he).2.2] at hh
  have hbusy : s.eng.busy ≠ false := fun hb => by simp [h.not_hung_of_idle hb] at hh
  obtain rfl | ⟨type, bank, pin, rfl⟩ | rfl := decodeCommand_cases hd
  · cases he; exact h.hungInAccess hh
  · obtain rfl | ⟨hb, -⟩ := exec_read_cases he
    · exact h.hungInAccess hh
    · exact absurd hb hbusy
  · obtain rfl | ⟨hb, -⟩ := exec_ack_cases he
    · exact h.hungInAccess hh
    · exact absurd hb hbusy

/-- An access that hangs does so in a phase that issues one, and only hidden registers have changed (R279 (b); log
18). -/
theorem legal_hangEvent (h : s.Legal) (n : Nat) : (s.hangEvent n).Legal := by
  unfold State.hangEvent
  split
  next hcond =>
    have hacc := (Bool.and_eq_true_iff.1 hcond).1
    obtain ⟨gap, hold, heng⟩ := inFlight_eng n s
    refine ⟨?_, fun _ => ?_⟩
    · show (s.inFlight n).eng.Legal
      rw [heng]
      exact h.engine.hidden _ _ _
    · show accessPhase (s.inFlight n).eng.phase = true
      rw [heng]
      exact hacc
  next => exact h

/-- Settles O44: by the agent that moves; of the sequencer's moves, by the phase. -/
theorem stepKeepsLegal : Obligations.StepKeepsLegal := by
  unfold Obligations.StepKeepsLegal
  intro s t h hstep
  obtain ⟨u, ⟨rest, rfl⟩, hmove⟩ := step_cases hstep
  have hu : ({ s with inbox := rest } : State).Legal := h.with_inbox_reply rest s.reply
  obtain ⟨i, hhung, hd, he⟩ | ⟨w, i, hd, he⟩ | ⟨r, rfl⟩ | ⟨n, rfl⟩ | ⟨n, rfl⟩ | ⟨b, oe, d, rfl⟩ := hmove
  · refine ⟨legal_exec_phase hu.engine hd he, fun hh => ?_⟩
    rw [(exec_sameAround he).2.2, hhung] at hh
    cases hh
  · have hr := h.with_inbox_reply rest (some .written)
    exact ⟨legal_exec_command hr.engine hd he, hung_exec_command hr hd he⟩
  · exact h.with_inbox_reply rest (some r)
  · exact ⟨legal_engineReset, nofun⟩
  · exact legal_hangEvent hu n
  · exact ⟨hu.engine, hu.hungInAccess⟩

/-- Settles O43: the reset state is legal, idle, and has counted nothing. -/
theorem resetIsLegal : Obligations.ResetIsLegal := by
  unfold Obligations.ResetIsLegal
  exact ⟨⟨legal_engineReset, nofun⟩, rfl, rfl, rfl, fun i _ => Vector.getElem_replicate _⟩

end Sys2Proof.Machine
end

section
/-! What a step is for each kind of move, where a step can stop, and how a step outside reset changes the engine. -/

namespace Sys2Proof.Machine

open Sys2Proof

variable {s t u : State} {i : Instr} {rest : List Move}

/-! ### The step of each move -/

/-- A turn that is settled at once is the step. -/
theorem step_of_fetch_settled (h : fetch s = .settled t) : step s = .next t := by
  simp only [step, h]

/-- An aligned 32-bit write reaches the register it names, acknowledged (R81, R84; log 11). -/
theorem hostTurn_write {off : BitVec 10} (w : Word) (h : off.toNat % 4 = 0) :
    hostTurn ⟨off, 4, .write w⟩ s = hostWrite off w { s with reply := some .written } := by
  simp [hostTurn, HostAccess.admitted, h]

/-- CMD takes the command in the word (R46, R123). -/
theorem hostWrite_command {w : Word} (hd : decodeCommand w = .ok i) : hostWrite 0 w s = .run i s := by
  simp only [hostWrite, if_true, hd]

/-- Every offset but CMD ignores a write (R56, R57). -/
theorem hostWrite_elsewhere {off : BitVec 10} (w : Word) (h : off ≠ 0) : hostWrite off w s = .settled s :=
  if_neg h

/-- A reset move is served at once (R310). -/
theorem step_reset {n : Nat} (h : s.inbox = .reset n :: rest) :
    step s = .next (({ s with inbox := rest } : State).resetEvent n) :=
  step_of_fetch_settled (fetch_of_inbox_cons h)

/-- Settles O6: the write is admitted, CMD takes it, and its word decodes. -/
theorem stepRunsTheCommand : Obligations.StepRunsTheCommand := by
  unfold Obligations.StepRunsTheCommand
  intro s w i rest hinbox hd
  have hfetch : fetch s = .run i { s with inbox := rest, reply := some .written } :=
    calc fetch s = hostTurn ⟨0, 4, .write w⟩ { s with inbox := rest } := fetch_of_inbox_cons hinbox
      _ = hostWrite 0 w { s with inbox := rest, reply := some .written } := hostTurn_write w rfl
      _ = _ := hostWrite_command hd
  exact step_of_fetch_run hfetch

/-- Settles O54: the write is admitted, and no offset but CMD takes it. -/
theorem writesElsewhereAreIgnored : Obligations.WritesElsewhereAreIgnored := by
  unfold Obligations.WritesElsewhereAreIgnored
  intro s off w rest hinbox halign hoff
  have hfetch : fetch s = .settled { s with inbox := rest, reply := some .written } :=
    calc fetch s = hostTurn ⟨off, 4, .write w⟩ { s with inbox := rest } := fetch_of_inbox_cons hinbox
      _ = hostWrite off w { s with inbox := rest, reply := some .written } := hostTurn_write w halign
      _ = _ := hostWrite_elsewhere w hoff
  exact step_of_fetch_settled hfetch

/-! ### Commands to a busy engine -/

/-- Every command answers the same state while BUSY is 1 (R150, R152, R155). -/
theorem exec_command_busy {w : Word} (hd : decodeCommand w = .ok i) (hb : s.eng.busy = true) :
    exec i s = .next s := by
  obtain rfl | ⟨type, bank, pin, rfl⟩ | rfl := decodeCommand_cases hd
  · rfl
  · exact exec_read_ignored type bank pin hb
  · exact exec_ack_busy hb

/-- Settles O14: a host access gets only its reply, or runs a command, which a busy engine ignores. -/
theorem noCommandStopsARead : Obligations.NoCommandStopsARead := by
  unfold Obligations.NoCommandStopsARead
  intro s a rest hb hinbox
  have hfetch : fetch s = hostTurn a { s with inbox := rest } := fetch_of_inbox_cons hinbox
  obtain ⟨w, i, -, -, -, hd, hturn⟩ | ⟨r, hturn⟩ := hostTurn_cases a { s with inbox := rest }
  · exact ⟨.written, (step_of_fetch_run (hfetch.trans hturn)).trans (exec_command_busy hd hb)⟩
  · exact ⟨r, step_of_fetch_settled (hfetch.trans hturn)⟩

/-! ### Where a step can stop -/

/-- Every command answers a next state. -/
theorem exec_command_progress {w : Word} (hd : decodeCommand w = .ok i) (s : State) : ∃ t, exec i s = .next t := by
  obtain rfl | ⟨type, bank, pin, rfl⟩ | rfl := decodeCommand_cases hd
  · exact ⟨s, rfl⟩
  · cases hb : s.eng.busy with
    | true => exact ⟨_, exec_read_ignored type bank pin hb⟩
    | false => exact ⟨_, exec_read_accepted type bank pin hb⟩
  · cases hb : s.eng.busy with
    | true => exact ⟨_, exec_ack_busy hb⟩
    | false => exact ⟨_, exec_ack_idle hb⟩

/-- ACQUIRE stops only while it waits for the platform (R172). -/
theorem exec_acquire_progress (hw : ¬s.awaitsPlatform) : ∃ t, exec .acquire s = .next t := by
  cases hp : s.pinBank with
  | none => exact ⟨_, exec_acquire_invalid hp⟩
  | some b =>
    cases hm : s.eng.mapped[b] with
    | true => exact ⟨_, exec_acquire_cached hp hm⟩
    | false =>
      cases ha : s.answerMissing with
      | true =>
        obtain ⟨hq, hnone⟩ := (answerMissing_iff s).1 ha
        exact absurd ⟨b, (pinBank_eq_some_iff s b).1 hp, hm, hq, hnone⟩ hw
      | false => exact ⟨_, exec_acquire_asks hp hm ha⟩

/-- A micro-operation stops only in ACQUIRE, waiting for the platform, or in a phase that accesses a pin there is not
(R90, R172). -/
theorem exec_phase_progress (hd : decodePhase s.eng.phase = .ok i)
    (hw : s.eng.phase = Phase.acquire → ¬s.awaitsPlatform)
    (hpin : accessPhase s.eng.phase = true → ∃ b, s.pinBank = some b) : ∃ t, exec i s = .next t := by
  obtain ⟨hform, hp⟩ := decodePhase_eq_ok hd
  rw [hp] at hw hpin
  cases i with
  | nop => cases hform
  | read type bank pin => cases hform
  | ack => cases hform
  | idle => exact ⟨s, rfl⟩
  | acquire => exact exec_acquire_progress (hw rfl)
  | hsHigh => obtain ⟨b, hb⟩ := hpin rfl; exact ⟨_, exec_hsHigh hb⟩
  | hsLow => obtain ⟨b, hb⟩ := hpin rfl; exact ⟨_, exec_hsLow hb⟩
  | release => obtain ⟨b, hb⟩ := hpin rfl; exact ⟨_, exec_release hb⟩
  | await =>
    obtain ⟨b, hb⟩ := hpin rfl
    cases hl : s.datainWord.getLsbD s.eng.argPin.toNat with
    | true => exact ⟨_, exec_await_high hb hl⟩
    | false => exact ⟨_, exec_await_low hb hl⟩
  | capLow =>
    obtain ⟨b, hb⟩ := hpin rfl
    cases hl : s.datainWord.getLsbD s.eng.argPin.toNat with
    | true => exact ⟨_, exec_capLow_high hb hl⟩
    | false => exact ⟨_, exec_capLow_low hb hl⟩
  | capHigh =>
    obtain ⟨b, hb⟩ := hpin rfl
    cases hl : s.datainWord.getLsbD s.eng.argPin.toNat with
    | true => exact ⟨_, exec_capHigh_high hb hl⟩
    | false => exact ⟨_, exec_capHigh_low hb hl⟩
  | thresh => exact ⟨_, rfl⟩
  | decode => exact ⟨_, rfl⟩
  | check =>
    by_cases hc : s.eng.raw[4] = s.eng.checksum
    · exact ⟨_, exec_check_match hc⟩
    · exact ⟨_, exec_check_mismatch hc⟩
  | scale =>
    cases ht : s.eng.argType with
    | a => exact ⟨_, exec_scale_a ht⟩
    | b => exact ⟨_, exec_scale_b ht⟩

/-- The phases that issue an access come after ACQUIRE (R179). -/
theorem hsHigh_le_of_accessPhase {p : BitVec 4} (h : accessPhase p = true) : Phase.hsHigh ≤ p := by
  have later : ∀ p : BitVec 4, accessPhase p = true → Phase.hsHigh ≤ p := by decide
  exact later p h

/-- The sequencer of a legal machine `u` has a step when no access hangs and no request waits. -/
theorem engineTurn_progress (h : u.Legal) (hh : u.hung = false) (hw : ¬u.awaitsPlatform)
    (hfetch : fetch s = engineTurn u) : ∃ t, step s = .next t := by
  obtain ⟨i, hd⟩ := decodePhase_of_le_scale h.engine.phaseNamed
  rw [step_of_fetch_engineTurn hfetch hh hd]
  refine exec_phase_progress hd (fun _ => hw) fun hacc => ?_
  obtain ⟨b, hbank, hpin, -⟩ := h.engine.pinAcquired (hsHigh_le_of_accessPhase hacc)
  exact ⟨b, (pinBank_eq_some_iff u b).2 ⟨hbank, hpin⟩⟩

/-- Settles O45: by the agent that moves. -/
theorem legalMachineStopsOnlyWhereStuck : Obligations.LegalMachineStopsOnlyWhereStuck := by
  unfold Obligations.LegalMachineStopsOnlyWhereStuck
  intro s h hfree
  cases hinbox : s.inbox with
  | nil =>
    obtain ⟨hh, hw⟩ := hfree (.inl hinbox)
    exact engineTurn_progress h hh hw (fetch_of_inbox_nil hinbox)
  | cons m rest =>
    have hfetch : fetch s = turn m { s with inbox := rest } := fetch_of_inbox_cons hinbox
    cases m with
    | engine =>
      obtain ⟨hh, hw⟩ := hfree (.inr (by rw [hinbox]; rfl))
      exact engineTurn_progress (h.with_inbox_reply rest s.reply) hh hw hfetch
    | host a =>
      obtain ⟨w, i, -, -, -, hd, hturn⟩ | ⟨r, hturn⟩ := hostTurn_cases a { s with inbox := rest }
      · rw [step_of_fetch_run (hfetch.trans hturn)]
        exact exec_command_progress hd _
      · exact ⟨_, step_of_fetch_settled (hfetch.trans hturn)⟩
    | reset n => exact ⟨_, step_of_fetch_settled hfetch⟩
    | hang n => exact ⟨_, step_of_fetch_settled hfetch⟩
    | others b oe d => exact ⟨_, step_of_fetch_settled hfetch⟩

/-! ### The engine in a step outside reset -/

/-- When the sequencer's turn answers, it has run the micro-operation that PHASE names. -/
theorem exec_of_step_engineTurn (hfetch : fetch s = engineTurn u) (h : step s = .next t) :
    ∃ i, decodePhase u.eng.phase = .ok i ∧ exec i u = .next t := by
  cases hturn : engineTurn u with
  | run i v =>
    obtain ⟨-, hd, rfl⟩ := (engineTurn_eq_run_iff u v i).1 hturn
    exact ⟨i, hd, (step_of_fetch_run (hfetch.trans hturn)).symm.trans h⟩
  | settled v => exact absurd hturn (engineTurn_ne_settled u v)
  | stuck f => simp [step, hfetch, hturn] at h

/-- An access that hangs changes hidden registers of the engine only (log 18). -/
theorem hangEvent_eng (n : Nat) (s : State) :
    ∃ gap hold, (s.hangEvent n).eng = { s.eng with pollGap := gap, oeHold := hold } := by
  unfold State.hangEvent
  split
  · exact inFlight_eng n s
  · exact ⟨_, _, rfl⟩

/-- Outside reset the engine changes by an instruction, of the sequencer or of the host, or in hidden registers only. `u`
is the state with the move taken and the reply noted. -/
theorem step_cases_of_not_reset (h : step s = .next t) (hr : ∀ n rest, s.inbox ≠ .reset n :: rest) :
    ∃ u : State, (∃ inbox reply, u = { s with inbox := inbox, reply := reply }) ∧
      ((∃ i, (decodePhase u.eng.phase = .ok i ∨ ∃ w, decodeCommand w = .ok i) ∧ exec i u = .next t) ∨
       ∃ gap hold, t.eng = { s.eng with pollGap := gap, oeHold := hold }) := by
  cases hinbox : s.inbox with
  | nil =>
    obtain ⟨i, hd, he⟩ := exec_of_step_engineTurn (fetch_of_inbox_nil hinbox) h
    exact ⟨s, ⟨_, _, rfl⟩, .inl ⟨i, .inl hd, he⟩⟩
  | cons m rest =>
    have hfetch : fetch s = turn m { s with inbox := rest } := fetch_of_inbox_cons hinbox
    cases m with
    | engine =>
      obtain ⟨i, hd, he⟩ := exec_of_step_engineTurn hfetch h
      exact ⟨_, ⟨rest, s.reply, rfl⟩, .inl ⟨i, .inl hd, he⟩⟩
    | host a =>
      obtain ⟨w, i, -, -, -, hd, hturn⟩ | ⟨r, hturn⟩ := hostTurn_cases a { s with inbox := rest }
      · rw [step_of_fetch_run (hfetch.trans hturn)] at h
        exact ⟨_, ⟨rest, _, rfl⟩, .inl ⟨i, .inr ⟨w, hd⟩, h⟩⟩
      · cases (step_of_fetch_settled (hfetch.trans hturn)).symm.trans h
        exact ⟨s, ⟨_, _, rfl⟩, .inr ⟨_, _, rfl⟩⟩
    | reset n => exact absurd hinbox (hr n rest)
    | hang n =>
      cases (step_of_fetch_settled hfetch).symm.trans h
      exact ⟨s, ⟨_, _, rfl⟩, .inr (hangEvent_eng n _)⟩
    | others b oe d =>
      cases (step_of_fetch_settled hfetch).symm.trans h
      exact ⟨s, ⟨_, _, rfl⟩, .inr ⟨_, _, rfl⟩⟩

end Sys2Proof.Machine
end

section
/-! Which instruction writes which register, what can change MAPPED, and that CRIT decides nothing. -/

namespace Sys2Proof.Machine

open Sys2Proof

variable {s t : State} {i : Instr}

/-- Settles O48: instruction by instruction, from what each leaves of the engine. -/
theorem eachRegisterHasItsWriters : Obligations.EachRegisterHasItsWriters := by
  unfold Obligations.EachRegisterHasItsWriters
  intro i s t h
  cases i with
  | nop => cases h; simp
  | read type bank pin =>
    obtain rfl | ⟨-, rfl⟩ := exec_read_cases h
    · simp
    · simp
  | ack =>
    obtain rfl | ⟨-, rfl⟩ := exec_ack_cases h
    · simp
    · simp
  | idle => cases h; simp
  | acquire =>
    obtain ⟨-, rfl⟩ | ⟨b, -, ⟨-, rfl⟩ | ⟨-, rfl⟩⟩ := exec_acquire_cases h
    · simp
    · simp
    · rw [acquireBank_eng]
      cases s.acqAnswer with
      | none => simp
      | some r => cases r <;> simp
  | hsHigh => obtain ⟨cnt, hold, heng⟩ := exec_hsHigh_eng h; simp [heng]
  | hsLow => obtain ⟨cnt, heng⟩ := exec_hsLow_eng h; simp [heng]
  | release => obtain ⟨hold, heng⟩ := exec_release_eng h; simp [heng]
  | await =>
    obtain ⟨b, -, rfl | rfl⟩ := exec_await_cases h
    · obtain ⟨-, heng⟩ | ⟨-, heng⟩ := countAwait_eng_cases (s.poll b) <;> simp [heng]
    · simp
  | capLow =>
    obtain ⟨b, -, rfl | rfl⟩ := exec_capLow_cases h
    · obtain ⟨-, heng⟩ | ⟨-, heng⟩ := countPulse_eng_cases (s.poll b) (lowSlot s.eng.pair) <;> simp [heng]
    · simp
  | capHigh =>
    obtain ⟨b, -, rfl | rfl⟩ := exec_capHigh_cases h
    · obtain ⟨-, heng⟩ | ⟨-, heng⟩ := countPulse_eng_cases (s.poll b) (highSlot s.eng.pair) <;> simp [heng]
    · obtain ⟨k, heng⟩ | heng := endPair_eng_cases (s.poll b) <;> simp [heng]
  | thresh => cases h; simp
  | decode => cases h; simp
  | check => obtain ⟨-, rfl⟩ | ⟨-, rfl⟩ := exec_check_cases h <;> simp
  | scale => obtain rfl | rfl := exec_scale_cases h <;> simp

/-! ### The acquisition cache -/

/-- An instruction keeps MAPPED, or is an ACQUIRE that caches the bank of its handle on the answer OK (R43, R170). -/
theorem exec_mapped_cases (h : exec i s = .next t) :
    t.eng.mapped = s.eng.mapped ∨
    (i = .acquire ∧ ∃ b, s.pinBank = some b ∧ s.acqAnswer = some .ok ∧ t.eng.mapped = s.eng.mapped.set b true) := by
  by_cases hkept : t.eng.mapped = s.eng.mapped
  · exact .inl hkept
  · obtain ⟨-, -, -, -, -, -, -, hwriter, -⟩ := eachRegisterHasItsWriters i s t h
    obtain rfl := hwriter hkept
    refine .inr ⟨rfl, ?_⟩
    obtain ⟨-, rfl⟩ | ⟨b, hb, ⟨-, rfl⟩ | ⟨-, rfl⟩⟩ := exec_acquire_cases h
    · exact absurd rfl hkept
    · exact absurd rfl hkept
    · refine ⟨b, hb, ?_⟩
      rw [acquireBank_eng] at hkept ⊢
      cases ha : s.acqAnswer with
      | none => simp [ha] at hkept
      | some answer =>
        cases answer with
        | ok => exact ⟨rfl, rfl⟩
        | denied => simp [ha] at hkept
        | mapFailed => simp [ha] at hkept
        | unavailable => simp [ha] at hkept

/-- A step outside reset keeps MAPPED, or is ACQUIRE's that caches the bank of its handle on the answer OK. -/
theorem step_mapped_cases (h : step s = .next t) (hr : ∀ n rest, s.inbox ≠ .reset n :: rest) :
    t.eng.mapped = s.eng.mapped ∨
    (s.eng.phase = Phase.acquire ∧ s.acqAnswer = some .ok ∧
      ∃ b, s.pinBank = some b ∧ t.eng.mapped = s.eng.mapped.set b true) := by
  obtain ⟨u, ⟨inbox, reply, rfl⟩, ⟨i, hd, he⟩ | ⟨gap, hold, heng⟩⟩ := step_cases_of_not_reset h hr
  · obtain hkept | ⟨rfl, b, hb, ha, hset⟩ := exec_mapped_cases he
    · exact .inl hkept
    · obtain hd | ⟨w, hd⟩ := hd
      · exact .inr ⟨(decodePhase_eq_ok hd).2, ha, b, hb, hset⟩
      · simpa using decodeCommand_cases hd
  · exact .inl (by rw [heng])

/-- Settles O47: only an ACQUIRE step sets a bit of MAPPED, and none clears one. -/
theorem mappedChangesOnlyByAcquire : Obligations.MappedChangesOnlyByAcquire := by
  unfold Obligations.MappedChangesOnlyByAcquire
  intro s t b h hr
  obtain hkept | ⟨hp, ha, c, hc, hset⟩ := step_mapped_cases h hr
  · rw [hkept]
    exact ⟨id, fun h0 h1 => by simp [h0] at h1⟩
  · obtain ⟨hbank, -⟩ := (pinBank_eq_some_iff s c).1 hc
    by_cases hbc : b = c
    · subst hbc
      exact ⟨fun _ => by simp [hset], fun _ _ => ⟨hp, hbank, ha⟩⟩
    · have hother : t.eng.mapped[b] = s.eng.mapped[b] := by
        rw [hset]
        exact Vector.getElem_set_ne _ _ fun h => hbc (Fin.ext h.symm)
      rw [hother]
      exact ⟨id, fun h0 h1 => by simp [h0] at h1⟩

/-! ### CRIT decides nothing -/

/-- The state with CRIT given. -/
def State.withCrit (c : Bool) (s : State) : State := { s with eng := { s.eng with crit := c } }

/-- `t` is `s` but for CRIT. -/
def State.AlikeButCrit (s t : State) : Prop := t.withCrit s.eng.crit = s

/-! The operations that branch, each run with another CRIT (R37): the branch is the same. -/

theorem countAwait_withCrit (s : State) (c : Bool) : s.countAwait.AlikeButCrit (s.withCrit c).countAwait := by
  by_cases h : Config.ceil ≤ s.bumpAwait.eng.awaitCount.toNat
  · have hs : s.countAwait = s.bumpAwait.complete .timeout := if_pos h
    have hc : (s.withCrit c).countAwait = (s.withCrit c).bumpAwait.complete .timeout := if_pos h
    rw [hs, hc]
    rfl
  · have hs : s.countAwait = s.bumpAwait := if_neg h
    have hc : (s.withCrit c).countAwait = (s.withCrit c).bumpAwait := if_neg h
    rw [hs, hc]
    rfl

theorem countPulse_withCrit (s : State) (c : Bool) (k : Fin 82) :
    (s.countPulse k).AlikeButCrit ((s.withCrit c).countPulse k) := by
  by_cases h : Config.ceil ≤ (s.bumpPulse k).eng.pulse[k].toNat
  · have hs : s.countPulse k = (s.bumpPulse k).closeWindow.complete .timeout := if_pos h
    have hc : (s.withCrit c).countPulse k = ((s.withCrit c).bumpPulse k).closeWindow.complete .timeout := if_pos h
    rw [hs, hc]
    rfl
  · have hs : s.countPulse k = s.bumpPulse k := if_neg h
    have hc : (s.withCrit c).countPulse k = (s.withCrit c).bumpPulse k := if_neg h
    rw [hs, hc]
    rfl

theorem endPair_withCrit (s : State) (c : Bool) : s.endPair.AlikeButCrit (s.withCrit c).endPair := by
  by_cases h : s.eng.pair.val < 40
  · have hs : s.endPair = { s with eng := { s.eng with
        pair := ⟨s.eng.pair.val + 1, by omega⟩, phase := Phase.capLow } } := dif_pos h
    have hc : (s.withCrit c).endPair = { s.withCrit c with eng := { (s.withCrit c).eng with
        pair := ⟨s.eng.pair.val + 1, by omega⟩, phase := Phase.capLow } } := dif_pos h
    rw [hs, hc]
    rfl
  · have hs : s.endPair = s.closeWindow.goto Phase.thresh := dif_neg h
    have hc : (s.withCrit c).endPair = (s.withCrit c).closeWindow.goto Phase.thresh := dif_neg h
    rw [hs, hc]
    rfl

theorem requestBank_withCrit (s : State) (c : Bool) (b : Fin 4) :
    (s.withCrit c).requestBank b = (s.requestBank b).withCrit c := by
  cases h : s.eng.acqPending with
  | true =>
    have hs : s.requestBank b = s := if_pos h
    have hc : (s.withCrit c).requestBank b = s.withCrit c := if_pos h
    rw [hs, hc]
  | false =>
    have hn : ¬s.eng.acqPending = true := by simp [h]
    have hs : s.requestBank b = { s with eng := { s.eng with acqPending := true }, log := .acqReq b :: s.log } :=
      if_neg hn
    have hc : (s.withCrit c).requestBank b = { s.withCrit c with
        eng := { (s.withCrit c).eng with acqPending := true }, log := .acqReq b :: s.log } := if_neg hn
    rw [hs, hc]
    rfl

theorem settleAcquisition_withCrit (s : State) (c : Bool) (b : Fin 4) (r : AcqAnswer) :
    (s.settleAcquisition b r).AlikeButCrit ((s.withCrit c).settleAcquisition b r) := by
  cases r <;> rfl

theorem acquireBank_withCrit (s : State) (c : Bool) (b : Fin 4) :
    (s.acquireBank b).AlikeButCrit ((s.withCrit c).acquireBank b) := by
  have ha : ((s.requestBank b).withCrit c).acqAnswer = (s.requestBank b).acqAnswer := rfl
  simp only [State.acquireBank, requestBank_withCrit, ha]
  cases (s.requestBank b).acqAnswer with
  | none => rfl
  | some r => exact settleAcquisition_withCrit _ c b r

/-- An instruction run with another CRIT ends in a state alike but for CRIT, or stops with the same fault. -/
def AlikeOutcomes (o o' : Host.Outcome State Fault Refusal) : Prop :=
  (∃ t t', o = .next t ∧ o' = .next t' ∧ t.AlikeButCrit t') ∨ (∃ f, o = .fault f ∧ o' = .fault f)

theorem exec_acquire_withCrit (s : State) (c : Bool) :
    AlikeOutcomes (exec .acquire s) (exec .acquire (s.withCrit c)) := by
  cases hp : s.pinBank with
  | none => exact .inl ⟨_, _, exec_acquire_invalid hp, exec_acquire_invalid (s := s.withCrit c) hp, rfl⟩
  | some b =>
    cases hm : s.eng.mapped[b] with
    | true => exact .inl ⟨_, _, exec_acquire_cached hp hm, exec_acquire_cached (s := s.withCrit c) hp hm, rfl⟩
    | false =>
      cases ha : s.answerMissing with
      | true => exact .inr ⟨_, exec_acquire_waits hp hm ha, exec_acquire_waits (s := s.withCrit c) hp hm ha⟩
      | false =>
        exact .inl ⟨_, _, exec_acquire_asks hp hm ha, exec_acquire_asks (s := s.withCrit c) hp hm ha,
          acquireBank_withCrit s c b⟩

/-- The phases that access the pin, for a handle that names one. -/
theorem exec_pin_phase_withCrit (s : State) (c : Bool) (b : Fin 4) (hp : s.pinBank = some b)
    (hi : i = .hsHigh ∨ i = .hsLow ∨ i = .release ∨ i = .await ∨ i = .capLow ∨ i = .capHigh) :
    AlikeOutcomes (exec i s) (exec i (s.withCrit c)) := by
  have hpc : (s.withCrit c).pinBank = some b := hp
  rcases hi with rfl | rfl | rfl | rfl | rfl | rfl
  · exact .inl ⟨_, _, exec_hsHigh hp, exec_hsHigh hpc, rfl⟩
  · exact .inl ⟨_, _, exec_hsLow hp, exec_hsLow hpc, rfl⟩
  · exact .inl ⟨_, _, exec_release hp, exec_release hpc, rfl⟩
  · cases hl : s.datainWord.getLsbD s.eng.argPin.toNat with
    | true => exact .inl ⟨_, _, exec_await_high hp hl, exec_await_high hpc hl, countAwait_withCrit (s.poll b) c⟩
    | false => exact .inl ⟨_, _, exec_await_low hp hl, exec_await_low hpc hl, rfl⟩
  · cases hl : s.datainWord.getLsbD s.eng.argPin.toNat with
    | true => exact .inl ⟨_, _, exec_capLow_high hp hl, exec_capLow_high hpc hl, rfl⟩
    | false => exact .inl ⟨_, _, exec_capLow_low hp hl, exec_capLow_low hpc hl, countPulse_withCrit (s.poll b) c _⟩
  · cases hl : s.datainWord.getLsbD s.eng.argPin.toNat with
    | true => exact .inl ⟨_, _, exec_capHigh_high hp hl, exec_capHigh_high hpc hl, countPulse_withCrit (s.poll b) c _⟩
    | false => exact .inl ⟨_, _, exec_capHigh_low hp hl, exec_capHigh_low hpc hl, endPair_withCrit (s.poll b) c⟩

/-- CRIT decides nothing: in no instruction does a branch, an operand or a stop depend on it (R37). -/
theorem exec_withCrit (i : Instr) (s : State) (c : Bool) : AlikeOutcomes (exec i s) (exec i (s.withCrit c)) := by
  have pin : (i = .hsHigh ∨ i = .hsLow ∨ i = .release ∨ i = .await ∨ i = .capLow ∨ i = .capHigh) →
      AlikeOutcomes (exec i s) (exec i (s.withCrit c)) := by
    intro hi
    cases hp : s.pinBank with
    | none => exact .inr ⟨_, exec_pin_phase_fault i hi hp, exec_pin_phase_fault (s := s.withCrit c) i hi hp⟩
    | some b => exact exec_pin_phase_withCrit s c b hp hi
  cases i with
  | nop => exact .inl ⟨_, _, rfl, rfl, rfl⟩
  | read type bank pin =>
    cases hb : s.eng.busy with
    | true => exact .inl ⟨_, _, exec_read_ignored _ _ _ hb, exec_read_ignored (s := s.withCrit c) _ _ _ hb, rfl⟩
    | false => exact .inl ⟨_, _, exec_read_accepted _ _ _ hb, exec_read_accepted (s := s.withCrit c) _ _ _ hb, rfl⟩
  | ack =>
    cases hb : s.eng.busy with
    | true => exact .inl ⟨_, _, exec_ack_busy hb, exec_ack_busy (s := s.withCrit c) hb, rfl⟩
    | false => exact .inl ⟨_, _, exec_ack_idle hb, exec_ack_idle (s := s.withCrit c) hb, rfl⟩
  | idle => exact .inl ⟨_, _, rfl, rfl, rfl⟩
  | acquire => exact exec_acquire_withCrit s c
  | hsHigh => exact pin (by simp)
  | hsLow => exact pin (by simp)
  | release => exact pin (by simp)
  | await => exact pin (by simp)
  | capLow => exact pin (by simp)
  | capHigh => exact pin (by simp)
  | thresh => exact .inl ⟨_, _, rfl, rfl, rfl⟩
  | decode => exact .inl ⟨_, _, rfl, rfl, rfl⟩
  | check =>
    by_cases hc : s.eng.raw[4] = s.eng.checksum
    · exact .inl ⟨_, _, exec_check_match hc, exec_check_match (s := s.withCrit c) hc, rfl⟩
    · exact .inl ⟨_, _, exec_check_mismatch hc, exec_check_mismatch (s := s.withCrit c) hc, rfl⟩
  | scale =>
    cases ht : s.eng.argType with
    | a => exact .inl ⟨_, _, exec_scale_a ht, exec_scale_a (s := s.withCrit c) ht, rfl⟩
    | b => exact .inl ⟨_, _, exec_scale_b ht, exec_scale_b (s := s.withCrit c) ht, rfl⟩

/-- Settles O51: by `exec_withCrit`, no outcome being a refusal. -/
theorem critChangesNoResult : Obligations.CritChangesNoResult := by
  unfold Obligations.CritChangesNoResult
  intro i s c
  show match exec i s, exec i (s.withCrit c) with
    | .next t, .next t' => t.AlikeButCrit t'
    | .fault f, .fault f' => f = f'
    | .refused r, .refused r' => r = r'
    | _, _ => False
  obtain ⟨t, t', hs, hc, halike⟩ | ⟨f, hs, hc⟩ := exec_withCrit i s c
  · rw [hs, hc]
    exact halike
  · rw [hs, hc]

end Sys2Proof.Machine
end

section
/-! The host window: the fields of STATUS at their bits, the other registers, the offsets the map does not name, and the
window after reset. -/

namespace Sys2Proof.Machine

open Sys2Proof

/-! ### STATUS -/

/-- The outcome whose code a 3-bit value is (R130). -/
def outcomeOfCode (c : BitVec 3) : ReadOutcome :=
  match c.toNat with
  | 0 => .none
  | 1 => .success
  | 2 => .invalidArgument
  | 3 => .gpioUnavailable
  | 4 => .deviceAccessDenied
  | 5 => .mappingFailed
  | 6 => .timeout
  | _ => .checksumMismatch

theorem code_outcomeOfCode : ∀ c : BitVec 3, (outcomeOfCode c).code = c := by decide

/-- The flags and the reserved single bits of STATUS. -/
theorem statusWord_bits (e : Engine) :
    e.statusWord.getLsbD 0 = e.busy ∧ e.statusWord.getLsbD 1 = e.done ∧ e.statusWord.getLsbD 2 = e.crit ∧
    e.statusWord.getLsbD 3 = false ∧ e.statusWord.getLsbD 11 = false := by
  simp only [Engine.statusWord, BitVec.getLsbD_append]
  simp

/-- The fields of more than one bit of STATUS, and its reserved bits [31:22]. -/
theorem statusWord_fields (e : Engine) :
    e.statusWord.extractLsb' 4 4 = e.phase ∧ e.statusWord.extractLsb' 8 3 = e.outcome.code ∧
    e.statusWord.extractLsb' 12 4 = e.failPhase ∧ e.statusWord.extractLsb' 16 6 = BitVec.ofNat 6 e.pair.val ∧
    e.statusWord.extractLsb' 22 10 = 0 := by
  simp (disch := decide) only [Engine.statusWord, BitVec.extractLsb'_append_eq_of_le,
    BitVec.extractLsb'_append_eq_of_add_le, BitVec.extractLsb'_eq_self, Nat.reduceSub, BitVec.ofNat_eq_ofNat, and_self]

/-- PAIR fits its six bits (R41, R47; log 15). -/
theorem toNat_pairField (e : Engine) : (BitVec.ofNat 6 e.pair.val).toNat = e.pair.val := by
  rw [BitVec.toNat_ofNat]
  exact Nat.mod_eq_of_lt (by omega)

/-- Settles O55: the word at 0x004 is STATUS, taken apart field by field. -/
theorem statusWordLayout : Obligations.StatusWordLayout := by
  unfold Obligations.StatusWordLayout
  refine ⟨fun e => ?_, by decide, rfl, rfl, rfl, rfl, rfl, rfl, rfl, rfl, fun c => ⟨_, code_outcomeOfCode c⟩⟩
  have hword : e.readReg 0x004 = e.statusWord := rfl
  obtain ⟨hbusy, hdone, hcrit, hbit3, hbit11⟩ := statusWord_bits e
  obtain ⟨hphase, houtcome, hfail, hpair, hrest⟩ := statusWord_fields e
  rw [hword, hpair]
  exact ⟨hbusy, hdone, hcrit, hbit3, hphase, houtcome, hbit11, hfail, toNat_pairField e, hrest⟩

/-! ### The other registers -/

/-- Two fields side by side, as a number. -/
theorem toNat_append_eq_add {m n : Nat} (x : BitVec m) (y : BitVec n) :
    (x ++ y).toNat = 2 ^ n * x.toNat + y.toNat := by
  rw [BitVec.toNat_append, ← Nat.shiftLeft_add_eq_or_of_lt y.isLt, Nat.shiftLeft_eq, Nat.mul_comm]

/-- TEMPERATURE is sign and magnitude (R49). -/
theorem toNat_temperatureWord (e : Engine) :
    e.temperatureWord.toNat = e.tempMag.toNat + (if e.tempNeg = true then 2 ^ 15 else 0) := by
  simp only [Engine.temperatureWord, toNat_append_eq_add]
  cases e.tempNeg with
  | false => simp
  | true => simp; omega

/-- RAW_LO holds the first four bytes, RAW[0] lowest (R50). -/
theorem toNat_rawLoWord (e : Engine) :
    e.rawLoWord.toNat =
      e.raw[0].toNat + 2 ^ 8 * e.raw[1].toNat + 2 ^ 16 * e.raw[2].toNat + 2 ^ 24 * e.raw[3].toNat := by
  simp only [Engine.rawLoWord, toNat_append_eq_add]
  omega

/-- ARGS holds the latches (R54). -/
theorem toNat_argsWord (e : Engine) :
    e.argsWord.toNat = e.argBank.toNat + 2 ^ 8 * e.argPin.toNat + (if e.argType = .b then 2 ^ 16 else 0) := by
  simp only [Engine.argsWord, toNat_append_eq_add]
  cases e.argType with
  | a => simp [typeBit]; omega
  | b => simp [typeBit]; omega

/-- BANKS holds MAPPED in its low four bits and zeros above (R53). -/
theorem getLsbD_banksWord (e : Engine) (n : Nat) :
    e.banksWord.getLsbD n = (if h : n < 4 then e.mapped[n] else false) := by
  by_cases h : n < 4
  · rw [dif_pos h]
    interval_cases n <;> simp only [Engine.banksWord, BitVec.getLsbD_append] <;> simp
  · rw [dif_neg h]
    simp (disch := omega) only [Engine.banksWord, BitVec.getLsbD_append, if_neg, BitVec.getLsbD_zero]

/-- Above ARGS the window holds the pulse counters and nothing else (R45, R55, R56). -/
theorem readReg_above_args (e : Engine) {off : BitVec 10} (h : 0x024 < off.toNat) :
    e.readReg off =
      if h : 0x100 ≤ off.toNat ∧ off.toNat ≤ 0x244 ∧ off.toNat % 4 = 0 then
        e.pulseWord ⟨(off.toNat - 0x100) / 4, by omega⟩
      else 0 := by
  unfold Engine.readReg
  split
  case h_10 => rfl
  all_goals omega

/-- PULSE_i stands at 0x100 + 4i (R55). -/
theorem readReg_pulse (e : Engine) (i : Fin 82) :
    e.readReg (BitVec.ofNat 10 (0x100 + 4 * i.val)) = e.pulseWord i := by
  have hoff : (BitVec.ofNat 10 (0x100 + 4 * i.val)).toNat = 0x100 + 4 * i.val := by
    rw [BitVec.toNat_ofNat]
    exact Nat.mod_eq_of_lt (by omega)
  rw [readReg_above_args e (by omega), dif_pos (by omega)]
  congr
  omega

/-- Settles O56: register by register; above ARGS by `readReg_above_args`. -/
theorem hostWindowReadsTheRegisters : Obligations.HostWindowReadsTheRegisters := by
  unfold Obligations.HostWindowReadsTheRegisters
  intro e
  refine ⟨rfl, BitVec.toNat_setWidth_of_le (by decide), toNat_temperatureWord e, toNat_rawLoWord e,
    BitVec.toNat_setWidth_of_le (by decide), rfl, BitVec.toNat_setWidth_of_le (by decide),
    fun n _ => getLsbD_banksWord e n, toNat_argsWord e, fun i => ?_, fun off _ hoff => ?_⟩
  · rw [readReg_pulse]
    exact BitVec.toNat_setWidth_of_le (by decide)
  · rw [readReg_above_args e (by omega), dif_neg (by omega)]

/-! ### Reset -/

/-- After reset the whole window reads 0 (R58). -/
theorem readReg_engineReset (off : BitVec 10) : Engine.reset.readReg off = 0 := by
  by_cases h : 0x024 < off.toNat
  · rw [readReg_above_args _ h]
    split
    · simp [Engine.pulseWord, Engine.reset]
    · rfl
  · unfold Engine.readReg
    split
    case h_10 => exact dif_neg (by omega)
    all_goals decide

/-- A reset takes no move of the others (R310). -/
theorem resetEvent_inbox (n : Nat) (s : State) : (s.resetEvent n).inbox = s.inbox := by
  unfold State.resetEvent
  cases s.hung with
  | true => rfl
  | false => exact (inFlight_frame n s).1

/-- Settles O57: a reset move leaves the engine of `Engine.reset`, whatever it was. -/
theorem resetClearsTheEngine : Obligations.ResetClearsTheEngine := by
  unfold Obligations.ResetClearsTheEngine
  intro s n rest hinbox
  exact ⟨_, step_reset hinbox, resetEvent_inbox n _, rfl, fun i => Vector.getElem_replicate _, rfl, rfl,
    fun j => Vector.getElem_replicate _, ⟨rfl, rfl, rfl⟩, rfl, rfl, rfl, rfl, rfl, rfl, rfl, rfl,
    fun b => Vector.getElem_replicate _, rfl, rfl, rfl, rfl, rfl, rfl, readReg_engineReset⟩

end Sys2Proof.Machine
end

section
/-! The host's accesses that change nothing: a register read, an access that is not admitted, a reserved opcode. -/

namespace Sys2Proof.Machine

open Sys2Proof

variable {s : State} {off : BitVec 10}

/-- An aligned 32-bit read answers the register and changes nothing (R83, R84). -/
theorem hostTurn_read (h : off.toNat % 4 = 0) :
    hostTurn ⟨off, 4, .read⟩ s = .settled { s with reply := some (.data (s.eng.readReg off)) } := by
  simp [hostTurn, HostAccess.admitted, h]

/-- An access that is not an aligned 32-bit one gets a bus error (R81; log 11). -/
theorem hostTurn_not_admitted {size : Nat} (op : HostOp) (h : size ≠ 4 ∨ off.toNat % 4 ≠ 0) :
    hostTurn ⟨off, size, op⟩ s = .settled { s with reply := some .busError } := by
  have hna : ¬(⟨off, size, op⟩ : HostAccess).admitted = true := by
    simpa [HostAccess.admitted, -not_and, not_and_or] using h
  exact if_neg hna

/-- OP is the word's lowest byte (R122). -/
theorem toNat_opField (w : Word) : (opField w).toNat = w.toNat % 256 := by
  simp [opField, BitVec.extractLsb'_toNat]

/-- The opcodes from 0x03 on are reserved (R124). -/
theorem decodeCommand_reserved {w : Word} (h : 3 ≤ w.toNat % 256) :
    decodeCommand w = .error (.reservedOpcode (opField w)) := by
  have hne : ∀ op : Byte, op.toNat < 3 → opField w ≠ op := by
    rintro op hop rfl
    rw [toNat_opField] at hop
    omega
  unfold decodeCommand
  rw [if_neg (hne 0 (by decide)), if_neg (hne 1 (by decide)), if_neg (hne 2 (by decide))]

/-- CMD ignores a word that is no command (R124, R156; log 12). -/
theorem hostWrite_no_command {w : Word} {e : DecodeError} (hd : decodeCommand w = .error e) :
    hostWrite 0 w s = .settled s := by
  simp only [hostWrite, if_true, hd]

/-- Settles O8: the write is admitted, and its word decodes to no command. -/
theorem reservedCommandIsIgnored : Obligations.ReservedCommandIsIgnored := by
  unfold Obligations.ReservedCommandIsIgnored
  intro s w rest hinbox hop
  have hfetch : fetch s = .settled { s with inbox := rest, reply := some .written } :=
    calc fetch s = hostTurn ⟨0, 4, .write w⟩ { s with inbox := rest } := fetch_of_inbox_cons hinbox
      _ = hostWrite 0 w { s with inbox := rest, reply := some .written } := hostTurn_write w rfl
      _ = _ := hostWrite_no_command (decodeCommand_reserved hop)
  exact step_of_fetch_settled hfetch

/-- Settles O52: the read's turn is settled with the register for its reply. -/
theorem hostReadHasNoSideEffect : Obligations.HostReadHasNoSideEffect := by
  unfold Obligations.HostReadHasNoSideEffect
  intro s off rest hinbox halign
  exact step_of_fetch_settled ((fetch_of_inbox_cons hinbox).trans (hostTurn_read halign))

/-- Settles O53: the access is not admitted. -/
theorem otherAccessGetsABusError : Obligations.OtherAccessGetsABusError := by
  unfold Obligations.OtherAccessGetsABusError
  intro s off size op rest hinbox hbad
  exact step_of_fetch_settled ((fetch_of_inbox_cons hinbox).trans (hostTurn_not_admitted op hbad))

end Sys2Proof.Machine
end

section
/-! The pin primitives bit by bit: the direction changes, the level writes, HS_HIGH that is made of them, and the write
half of a direction change after another master's move. -/

namespace Sys2Proof.Machine

open Sys2Proof

variable {s : State} {b : Fin 4}

/-! ### The mask and the banks -/

/-- Clearing the mask clears the pin's bit and keeps the others (R174, R176). -/
theorem getLsbD_and_not_pinMask (s : State) (v : Word) {n : Nat} (hn : n < 32) :
    (v &&& ~~~s.pinMask).getLsbD n = if n = s.eng.argPin.toNat then false else v.getLsbD n := by
  rw [BitVec.getLsbD_and, BitVec.getLsbD_not, pinMask_getLsbD s n hn]
  by_cases h : n = s.eng.argPin.toNat
  · simp [h]
  · simp [h, hn]

/-- Setting the mask sets the pin's bit and keeps the others (R175, R176). -/
theorem getLsbD_or_pinMask (s : State) (v : Word) {n : Nat} (hn : n < 32) :
    (v ||| s.pinMask).getLsbD n = if n = s.eng.argPin.toNat then true else v.getLsbD n := by
  rw [BitVec.getLsbD_or, pinMask_getLsbD s n hn]
  by_cases h : n = s.eng.argPin.toNat
  · simp [h]
  · simp [h]

/-- Changing bank `b` leaves the other banks. -/
theorem banks_set_ne (banks : Vector GpioBank 4) (g : GpioBank) {c : Fin 4} (h : c ≠ b) :
    (banks.set b g)[c] = banks[c] :=
  Vector.getElem_set_ne _ _ (Fin.val_ne_of_ne h.symm)

/-! ### The primitives -/

/-- Settles O17: from `dirOut_spec`, bit by bit. -/
theorem dirOutClearsOnlyItsBit : Obligations.DirOutClearsOnlyItsBit := by
  unfold Obligations.DirOutClearsOnlyItsBit
  intro s b _
  obtain ⟨heng, hbanks, hlog, -⟩ := dirOut_spec s b
  have hbank : (s.dirOut b).banks[b] = ⟨s.oeWord &&& ~~~s.pinMask, s.banks[b].dataout⟩ := by
    rw [hbanks]
    exact Vector.getElem_set_self _
  rw [hbank, hbanks, heng]
  exact ⟨fun n hn => getLsbD_and_not_pinMask s _ hn, rfl, fun c hc => banks_set_ne _ _ hc, hlog, rfl⟩

/-- Settles O18: from `dirIn_spec`, bit by bit. -/
theorem dirInSetsOnlyItsBit : Obligations.DirInSetsOnlyItsBit := by
  unfold Obligations.DirInSetsOnlyItsBit
  intro s b _
  obtain ⟨heng, hbanks, hlog, -⟩ := dirIn_spec s b
  have hbank : (s.dirIn b).banks[b] = ⟨s.oeWord ||| s.pinMask, s.banks[b].dataout⟩ := by
    rw [hbanks]
    exact Vector.getElem_set_self _
  rw [hbank, hbanks, heng]
  exact ⟨fun n hn => getLsbD_or_pinMask s _ hn, rfl, fun c hc => banks_set_ne _ _ hc, hlog, rfl⟩

/-- The pin's bank after LEVEL_HIGH. -/
theorem levelHigh_bank (s : State) (b : Fin 4) :
    (s.levelHigh b).banks[b] = ⟨s.banks[b].oe, s.banks[b].dataout ||| s.pinMask⟩ :=
  Vector.getElem_set_self _

/-- The pin's bank after LEVEL_LOW. -/
theorem levelLow_bank (s : State) (b : Fin 4) :
    (s.levelLow b).banks[b] = ⟨s.banks[b].oe, s.banks[b].dataout &&& ~~~s.pinMask⟩ :=
  Vector.getElem_set_self _

/-- Settles O19: each of the two sets one bank, in one bit of its latch. -/
theorem levelWritesTouchOnlyTheirPin : Obligations.LevelWritesTouchOnlyTheirPin := by
  unfold Obligations.LevelWritesTouchOnlyTheirPin
  intro s b _
  obtain ⟨hheng, hhbanks, hhlog, -⟩ := levelHigh_spec s b
  obtain ⟨hleng, hlbanks, hllog, -⟩ := levelLow_spec s b
  rw [levelHigh_bank, levelLow_bank, hhbanks, hlbanks]
  exact ⟨fun n hn => ⟨getLsbD_or_pinMask s _ hn, getLsbD_and_not_pinMask s _ hn⟩, rfl, rfl,
    fun c hc => ⟨banks_set_ne _ _ hc, banks_set_ne _ _ hc⟩, hhlog, hllog, hheng, hleng⟩

/-! ### HS_HIGH -/

/-- The banks after the two primitives of HS_HIGH: output enabled and level set in one bank (R184). -/
theorem levelHigh_dirOut_banks (s : State) (b : Fin 4) :
    ((s.dirOut b).levelHigh b).banks =
      s.banks.set b ⟨s.oeWord &&& ~~~s.pinMask, s.banks[b].dataout ||| s.pinMask⟩ := by
  obtain ⟨-, hlevel, -⟩ := levelHigh_spec (s.dirOut b) b
  obtain ⟨-, hdir, -⟩ := dirOut_spec s b
  have hmask : (s.dirOut b).pinMask = s.pinMask := rfl
  rw [hlevel, hdir, hmask]
  simp

/-- Settles O21: HS_HIGH is DIR_OUT, LEVEL_HIGH, a wait and a change of phase. -/
theorem hsHighDrivesThePinHigh : Obligations.HsHighDrivesThePinHigh := by
  unfold Obligations.HsHighDrivesThePinHigh
  intro s b hvalid
  have hexec := exec_hsHigh ((pinBank_eq_some_iff s b).2 hvalid)
  obtain ⟨heng, -, hdirLog, hoe, -⟩ := dirOut_spec s b
  obtain ⟨-, -, -, hdatain, hacq, -⟩ := dir_frame s b
  obtain ⟨-, -, hlevelLog, -⟩ := levelHigh_spec (s.dirOut b) b
  refine ⟨_, hexec, ?_, ?_, fun c hc => ?_, ?_, exec_sameAround hexec, hdatain, hacq, hoe⟩
  · simp [levelHigh_spec, heng]
  · rw [State.goto_banks, State.waitMs_banks, levelHigh_dirOut_banks]
    exact Vector.getElem_set_self _
  · rw [State.goto_banks, State.waitMs_banks, levelHigh_dirOut_banks]
    exact banks_set_ne _ _ hc
  · rw [State.goto_log, State.waitMs_log, hlevelLog, hdirLog]
    rfl

/-! ### The write half after another master's move -/

/-- A write of OE leaves the written word and the latch as it was (R95). -/
theorem writeOe_bank (s : State) (b : Fin 4) (v : Word) :
    (s.writeOe b v).banks[b] = ⟨v, s.banks[b].dataout⟩ :=
  Vector.getElem_set_self _

/-- Other masters leave what they write (R102; log 17). -/
theorem othersAct_bank (s : State) (b : Fin 4) (oe dataout : Word) :
    (s.othersAct b oe dataout).banks[b] = ⟨oe, dataout⟩ :=
  Vector.getElem_set_self _

/-- Settles O20: the write half writes OE_HOLD, which the others' move does not change. -/
theorem oeWriteUndoesOthersChange : Obligations.OeWriteUndoesOthersChange := by
  unfold Obligations.OeWriteUndoesOthersChange
  intro s b oe dataout interfered
  have hbank : interfered.banks[b] = ⟨oe, dataout⟩ := othersAct_bank (s.readOe b) b oe dataout
  rw [writeOe_bank, writeOe_bank, hbank]
  exact ⟨rfl, rfl⟩

end Sys2Proof.Machine
end

section
/-! A poll uses one bit of the word it reads: two polls that differ in the other bits leave states that differ in the
record only. -/

namespace Sys2Proof.Machine

open Sys2Proof

variable {s : State} {i : Instr}

/-- The state with its record given. -/
def State.withLog (l : List PortEvent) (s : State) : State := { s with log := l }

/-! The operations that branch after a poll do not look at the record (log 10). -/

theorem countAwait_withLog (s : State) (l : List PortEvent) : (s.withLog l).countAwait = s.countAwait.withLog l := by
  simp only [State.countAwait, apply_ite (State.withLog l)]
  rfl

theorem countPulse_withLog (s : State) (l : List PortEvent) (k : Fin 82) :
    (s.withLog l).countPulse k = (s.countPulse k).withLog l := by
  simp only [State.countPulse, apply_ite (State.withLog l)]
  rfl

theorem endPair_withLog (s : State) (l : List PortEvent) : (s.withLog l).endPair = s.endPair.withLog l := by
  simp only [State.endPair, apply_dite (State.withLog l)]
  rfl

/-- The state with the next DATAIN word given. -/
def State.withDatain (d : Word) (rest : List Word) (s : State) : State := { s with datainIn := d :: rest }

/-- Two polls of different words differ in the record only. -/
theorem poll_withDatain (s : State) (b : Fin 4) (d d' : Word) (rest : List Word) :
    (s.withDatain d' rest).poll b = ((s.withDatain d rest).poll b).withLog (.read b .datain d' :: s.log) := rfl

/-- A poll phase ends alike but for the record, whichever of two words with the same bit ARG_PIN it reads (R91, R177). -/
theorem exec_poll_phase_withDatain {b : Fin 4} {d d' : Word} (rest : List Word)
    (hi : i = .await ∨ i = .capLow ∨ i = .capHigh) (hp : s.pinBank = some b)
    (hbit : d.getLsbD s.eng.argPin.toNat = d'.getLsbD s.eng.argPin.toNat) :
    ∃ t, exec i (s.withDatain d rest) = .next t ∧
      exec i (s.withDatain d' rest) = .next (t.withLog (.read b .datain d' :: s.log)) := by
  have hp1 : (s.withDatain d rest).pinBank = some b := hp
  have hp2 : (s.withDatain d' rest).pinBank = some b := hp
  cases hl : d.getLsbD s.eng.argPin.toNat with
  | true =>
    have hl' := hbit.symm.trans hl
    rcases hi with rfl | rfl | rfl
    · refine ⟨_, exec_await_high hp1 hl, (exec_await_high hp2 hl').trans ?_⟩
      rw [poll_withDatain s b d d', countAwait_withLog]
    · exact ⟨_, exec_capLow_high hp1 hl, exec_capLow_high hp2 hl'⟩
    · refine ⟨_, exec_capHigh_high hp1 hl, (exec_capHigh_high hp2 hl').trans ?_⟩
      rw [poll_withDatain s b d d', countPulse_withLog]
      rfl
  | false =>
    have hl' := hbit.symm.trans hl
    rcases hi with rfl | rfl | rfl
    · exact ⟨_, exec_await_low hp1 hl, exec_await_low hp2 hl'⟩
    · refine ⟨_, exec_capLow_low hp1 hl, (exec_capLow_low hp2 hl').trans ?_⟩
      rw [poll_withDatain s b d d', countPulse_withLog]
      rfl
    · refine ⟨_, exec_capHigh_low hp1 hl, (exec_capHigh_low hp2 hl').trans ?_⟩
      rw [poll_withDatain s b d d', endPair_withLog]

/-- Settles O28: without a pin both runs fault; with one they end alike by `exec_poll_phase_withDatain`. -/
theorem otherPinsDoNotMatter : Obligations.OtherPinsDoNotMatter := by
  unfold Obligations.OtherPinsDoNotMatter
  intro i s d d' rest hi hbit
  cases hp : s.pinBank with
  | none =>
    have fault : ∀ w : Word, exec i { s with datainIn := w :: rest } = .fault .noSuchPin := fun w =>
      exec_pin_phase_fault i (.inr (.inr (.inr hi))) hp
    rw [fault d, fault d']
  | some b =>
    obtain ⟨t, h, h'⟩ := exec_poll_phase_withDatain rest hi hp hbit
    rw [show exec i { s with datainIn := d :: rest } = .next t from h,
      show exec i { s with datainIn := d' :: rest } = .next (t.withLog _) from h']
    exact ⟨rfl, rfl, rfl, rfl, rfl, rfl, rfl⟩

end Sys2Proof.Machine
end

section
/-! The master port: the physical addresses, and which events and which bank changes each instruction makes. -/

namespace Sys2Proof.Machine

open Sys2Proof

variable {s t : State} {i : Instr}

/-! ### Physical addresses -/

/-- A bank's base is 4096 times its page number (R10). -/
theorem toNat_bankBase (b : Fin 4) : (Config.bankBase b).toNat = 4096 * (Config.bankPage b).toNat := by
  rw [Config.bankBase, toNat_append_eq_add]
  simp

/-- The registers of the page are word-aligned (R95). -/
theorem off_mod_four (r : BankReg) : r.off.toNat % 4 = 0 := by
  cases r <;> rfl

/-- A register's address is its base plus its offset: the sum stays below 2^32 (R90). -/
theorem toNat_busAddress (b : Fin 4) (r : BankReg) :
    (busAddress b r).toNat = (Config.bankBase b).toNat + r.off.toNat := by
  have hpage := (Config.bankPage b).isLt
  have hoff := r.off.isLt
  rw [busAddress, BitVec.toNat_add, BitVec.toNat_setWidth_of_le (by decide), toNat_bankBase]
  exact Nat.mod_eq_of_lt (by omega)

/-- Settles O59: from `toNat_busAddress`, with the offsets of the table. -/
theorem busAddressNeverWraps : Obligations.BusAddressNeverWraps := by
  unfold Obligations.BusAddressNeverWraps
  intro b r
  have hbase := toNat_bankBase b
  have hoff := off_mod_four r
  have haddr := toNat_busAddress b r
  exact ⟨haddr, by omega, r.off.isLt, by omega, by cases r <;> rfl⟩

/-! ### The record and the banks, instruction by instruction -/

/-- What a poll phase does on the port: one read of DATAIN, whatever follows it (R177). -/
theorem exec_poll_phase_port (hi : i = .await ∨ i = .capLow ∨ i = .capHigh) (h : exec i s = .next t) :
    ∃ b, s.pinBank = some b ∧ t.banks = s.banks ∧ t.log = .read b .datain s.datainWord :: s.log := by
  rcases hi with rfl | rfl | rfl
  · obtain ⟨b, hp, rfl | rfl⟩ := exec_await_cases h
    · obtain ⟨hbanks, hlog, -⟩ := countAwait_frame (s.poll b)
      exact ⟨b, hp, hbanks, hlog⟩
    · exact ⟨b, hp, rfl, rfl⟩
  · obtain ⟨b, hp, rfl | rfl⟩ := exec_capLow_cases h
    · obtain ⟨hbanks, hlog, -⟩ := countPulse_frame (s.poll b) (lowSlot s.eng.pair)
      exact ⟨b, hp, hbanks, hlog⟩
    · exact ⟨b, hp, rfl, rfl⟩
  · obtain ⟨b, hp, rfl | rfl⟩ := exec_capHigh_cases h
    · obtain ⟨hbanks, hlog, -⟩ := countPulse_frame (s.poll b) (highSlot s.eng.pair)
      exact ⟨b, hp, hbanks, hlog⟩
    · obtain ⟨hbanks, hlog, -⟩ := endPair_frame (s.poll b)
      exact ⟨b, hp, hbanks, hlog⟩

/-- What ACQUIRE does on the ports: at most one request, for an uncached bank (R170, R171). -/
theorem exec_acquire_port (h : exec .acquire s = .next t) :
    t.banks = s.banks ∧ (t.log = s.log ∨
      ∃ b, s.pinBank = some b ∧ s.eng.mapped[b] = false ∧ t.log = .acqReq b :: s.log) := by
  obtain ⟨-, rfl⟩ | ⟨b, hp, ⟨-, rfl⟩ | ⟨hm, rfl⟩⟩ := exec_acquire_cases h
  · exact ⟨rfl, .inl rfl⟩
  · exact ⟨rfl, .inl rfl⟩
  · obtain ⟨hbanks, -, -, -, -, -, -, -, hlog⟩ := acquireBank_frame s b
    refine ⟨hbanks, ?_⟩
    rw [hlog]
    split
    · exact .inl rfl
    · exact .inr ⟨b, hp, hm, rfl⟩

/-- The instructions that leave the ports alone: the commands, IDLE and the decode phases (R179, R230). -/
theorem exec_port_unused (h : exec i s = .next t)
    (hi : i = .nop ∨ (∃ type bank pin, i = .read type bank pin) ∨ i = .ack ∨ i = .idle ∨ i = .thresh ∨ i = .decode ∨
      i = .check ∨ i = .scale) : t.banks = s.banks ∧ t.log = s.log := by
  rcases hi with rfl | ⟨type, bank, pin, rfl⟩ | rfl | rfl | rfl | rfl | rfl | rfl
  · cases h; exact ⟨rfl, rfl⟩
  · obtain rfl | ⟨-, rfl⟩ := exec_read_cases h <;> exact ⟨rfl, rfl⟩
  · obtain rfl | ⟨-, rfl⟩ := exec_ack_cases h <;> exact ⟨rfl, rfl⟩
  · cases h; exact ⟨rfl, rfl⟩
  · cases h; exact ⟨rfl, rfl⟩
  · cases h; exact ⟨rfl, rfl⟩
  · obtain ⟨-, rfl⟩ | ⟨-, rfl⟩ := exec_check_cases h <;> exact ⟨rfl, rfl⟩
  · obtain rfl | rfl := exec_scale_cases h <;> exact ⟨rfl, rfl⟩

/-- What an instruction may add to the record when it runs on `s` (R90, R92, R128, R179). -/
def MayRecord (i : Instr) (s : State) : PortEvent → Prop
  | .read b r _ => s.pinValid b ∧ ((r = .oe ∧ (i = .hsHigh ∨ i = .release)) ∨
      (r = .datain ∧ (i = .await ∨ i = .capLow ∨ i = .capHigh)))
  | .write b r v => s.pinValid b ∧
      ((r = .set ∧ i = .hsHigh ∧ v = s.pinMask) ∨ (r = .clr ∧ i = .hsLow ∧ v = s.pinMask) ∨
       (r = .oe ∧ i = .hsHigh ∧ v = s.oeWord &&& ~~~s.pinMask) ∨
       (r = .oe ∧ i = .release ∧ v = s.oeWord ||| s.pinMask))
  | .acqReq b => i = .acquire ∧ s.pinValid b ∧ s.eng.mapped[b] = false
  | .wait n => (i = .hsHigh ∧ n = 500) ∨ (i = .hsLow ∧ n = 20)

/-- The port use of an instruction: the record grows by events it may record, and only HS_HIGH, HS_LOW and RELEASE
change a bank. -/
def PortUse (i : Instr) (s t : State) : Prop :=
  (∃ new, t.log = new ++ s.log ∧ ∀ ev ∈ new, MayRecord i s ev) ∧
    (t.banks ≠ s.banks → i = .hsHigh ∨ i = .hsLow ∨ i = .release)

/-- An instruction that leaves the banks and the record alone uses no port. -/
theorem portUse_of_unused (h : t.banks = s.banks ∧ t.log = s.log) : PortUse i s t :=
  ⟨⟨[], h.2, by simp⟩, fun hne => absurd h.1 hne⟩

/-- An instruction that adds one event it may record and keeps the banks. -/
theorem portUse_of_event {ev : PortEvent} (hbanks : t.banks = s.banks) (hlog : t.log = ev :: s.log)
    (hev : MayRecord i s ev) : PortUse i s t :=
  ⟨⟨[ev], hlog, by simpa using hev⟩, fun hne => absurd hbanks hne⟩

/-- ACQUIRE adds at most its request (R170). -/
theorem portUse_acquire (h : exec .acquire s = .next t) : PortUse .acquire s t := by
  obtain ⟨hbanks, hlog | ⟨b, hp, hm, hlog⟩⟩ := exec_acquire_port h
  · exact portUse_of_unused ⟨hbanks, hlog⟩
  · exact portUse_of_event hbanks hlog ⟨rfl, (pinBank_eq_some_iff s b).1 hp, hm⟩

/-- A poll phase adds its read of DATAIN (R177). -/
theorem portUse_poll_phase (hi : i = .await ∨ i = .capLow ∨ i = .capHigh) (h : exec i s = .next t) :
    PortUse i s t := by
  obtain ⟨b, hp, hbanks, hlog⟩ := exec_poll_phase_port hi h
  exact portUse_of_event hbanks hlog ⟨(pinBank_eq_some_iff s b).1 hp, .inr ⟨rfl, hi⟩⟩

/-- HS_HIGH adds a direction change to output, a write of SET and its wait (R184). -/
theorem portUse_hsHigh (h : exec .hsHigh s = .next t) : PortUse .hsHigh s t := by
  obtain ⟨b, hp, rfl⟩ := exec_hsHigh_cases h
  have hvalid : s.pinValid b := (pinBank_eq_some_iff s b).1 hp
  refine ⟨⟨[.wait 500, .write b .set s.pinMask, .write b .oe (s.oeWord &&& ~~~s.pinMask), .read b .oe s.oeWord],
    rfl, ?_⟩, fun _ => .inl rfl⟩
  simpa [MayRecord] using hvalid

/-- HS_LOW adds a write of CLR and its wait (R185). -/
theorem portUse_hsLow (h : exec .hsLow s = .next t) : PortUse .hsLow s t := by
  obtain ⟨b, hp, rfl⟩ := exec_hsLow_cases h
  have hvalid : s.pinValid b := (pinBank_eq_some_iff s b).1 hp
  refine ⟨⟨[.wait 20, .write b .clr s.pinMask], rfl, ?_⟩, fun _ => .inr (.inl rfl)⟩
  simpa [MayRecord] using hvalid

/-- RELEASE adds a direction change to input (R186). -/
theorem portUse_release (h : exec .release s = .next t) : PortUse .release s t := by
  obtain ⟨b, hp, rfl⟩ := exec_release_cases h
  have hvalid : s.pinValid b := (pinBank_eq_some_iff s b).1 hp
  refine ⟨⟨[.write b .oe (s.oeWord ||| s.pinMask), .read b .oe s.oeWord], rfl, ?_⟩, fun _ => .inr (.inr rfl)⟩
  simpa [MayRecord] using hvalid

/-- Every instruction uses the ports as `PortUse` says. -/
theorem exec_portUse (h : exec i s = .next t) : PortUse i s t := by
  have unused := fun hi => portUse_of_unused (i := i) (exec_port_unused h hi)
  cases i with
  | nop => exact unused (by simp)
  | read type bank pin => exact unused (by simp)
  | ack => exact unused (by simp)
  | idle => exact unused (by simp)
  | acquire => exact portUse_acquire h
  | hsHigh => exact portUse_hsHigh h
  | hsLow => exact portUse_hsLow h
  | release => exact portUse_release h
  | await => exact portUse_poll_phase (by simp) h
  | capLow => exact portUse_poll_phase (by simp) h
  | capHigh => exact portUse_poll_phase (by simp) h
  | thresh => exact unused (by simp)
  | decode => exact unused (by simp)
  | check => exact unused (by simp)
  | scale => exact unused (by simp)

/-- Settles O49: `MayRecord` is the statement's list of events. -/
theorem portIsUsedOnlyForThePin : Obligations.PortIsUsedOnlyForThePin := by
  unfold Obligations.PortIsUsedOnlyForThePin
  intro i s t h
  obtain ⟨⟨new, hlog, hnew⟩, hbanks⟩ := exec_portUse h
  refine ⟨⟨new, hlog, fun ev hev => ?_⟩, hbanks⟩
  have hmay := hnew ev hev
  cases ev <;> exact hmay

end Sys2Proof.Machine
end

section
/-! Where the sequencer's turn stops and where it does not. -/

namespace Sys2Proof.Machine

open Sys2Proof

variable {s : State} {c : BitVec 4}

/-- When the turn is the sequencer's it moves on the state as it is, but for the moves to come (log 2). -/
theorem fetch_of_sequencerMoves (h : s.sequencerMoves) :
    ∃ rest, fetch s = engineTurn { s with inbox := rest } := by
  cases hinbox : s.inbox with
  | nil => exact ⟨[], by rw [fetch_of_inbox_nil hinbox, ← hinbox]⟩
  | cons m rest =>
    obtain rfl : m = .engine := by simpa [State.sequencerMoves, hinbox] using h
    exact ⟨rest, fetch_of_inbox_cons hinbox⟩

/-- A turn without a step stops the machine. -/
theorem step_of_fetch_stuck {f : Fault} (h : fetch s = .stuck f) : step s = .fault f := by
  simp only [step, h]

/-- A hung access gives the sequencer no step (R93, R279 (b)). -/
theorem engineTurn_of_hung (h : s.hung = true) : engineTurn s = .stuck .accessHung := if_pos h

/-- The codes from 12 on are reserved (R127). -/
theorem decodePhase_reserved (h : 12 ≤ c.toNat) : decodePhase c = .error (.reservedPhase c) := by
  unfold decodePhase
  split
  case h_13 => rfl
  all_goals omega

/-- A reserved code gives the sequencer no step (R127). -/
theorem engineTurn_reserved (hh : s.hung = false) (hp : 12 ≤ s.eng.phase.toNat) :
    engineTurn s = .stuck .reservedPhase := by
  simp [engineTurn, hh, decodePhase_reserved hp]

/-- The phases that issue an access are the six pin phases (R179). -/
theorem decodePhase_of_accessPhase (h : accessPhase c = true) :
    ∃ i, decodePhase c = .ok i ∧
      (i = .hsHigh ∨ i = .hsLow ∨ i = .release ∨ i = .await ∨ i = .capLow ∨ i = .capHigh) := by
  simp only [accessPhase, Bool.or_eq_true, decide_eq_true_eq, or_assoc] at h
  rcases h with rfl | rfl | rfl | rfl | rfl | rfl <;> exact ⟨_, rfl, by simp⟩

/-- Settles O60: the sequencer's turn, by whether an access hangs and by the phase. -/
theorem sequencerStopsOnlyWhereStuck : Obligations.SequencerStopsOnlyWhereStuck := by
  unfold Obligations.SequencerStopsOnlyWhereStuck
  refine ⟨fun s hseq hh => ?_, fun s hseq hh hp => ?_, fun s hseq hh hp hw => ?_, fun s hseq hh hacc hbad => ?_,
    fun s i hi hbad => exec_pin_phase_fault i hi ((pinBank_eq_none_iff s).2 hbad), fun s hseq hh hp hw hpin => ?_⟩
  all_goals obtain ⟨rest, hfetch⟩ := fetch_of_sequencerMoves hseq
  · exact step_of_fetch_stuck (hfetch.trans (engineTurn_of_hung hh))
  · exact step_of_fetch_stuck (hfetch.trans (engineTurn_reserved hh hp))
  · obtain ⟨b, hvalid, hm, hq, hnone⟩ := hw
    rw [step_of_fetch_engineTurn hfetch hh (by rw [hp]; rfl)]
    exact exec_acquire_waits ((pinBank_eq_some_iff _ b).2 hvalid) hm ((answerMissing_iff _).2 ⟨hq, hnone⟩)
  · obtain ⟨i, hd, hi⟩ := decodePhase_of_accessPhase hacc
    rw [step_of_fetch_engineTurn hfetch hh hd]
    exact exec_pin_phase_fault i hi ((pinBank_eq_none_iff _).2 hbad)
  · obtain ⟨i, hd⟩ := decodePhase_of_le_scale (BitVec.le_def.2 (Nat.le_of_lt_succ hp))
    rw [step_of_fetch_engineTurn hfetch hh hd]
    refine exec_phase_progress hd hw fun hacc => ?_
    obtain hno | ⟨b, hvalid⟩ := hpin
    · exact absurd (hacc.symm.trans hno) (by decide)
    · exact ⟨b, (pinBank_eq_some_iff _ b).2 hvalid⟩

end Sys2Proof.Machine
end

section
/-! The encoding of spec/30_encoding.md: the fields of a command word, what each opcode and phase code decodes to, that
decoding undoes encoding, and that a decoded command re-encodes to its own meaningful bits. -/

namespace Sys2Proof.Machine

open Sys2Proof

variable {i : Instr} {w : Word} {c : BitVec 4}

/-! ### The fields of a command word -/

/-- The four bytes of a word, lowest first, make up the word (R82, R94). -/
theorem wordOfBytes_byteOfWord (w : Word) :
    wordOfBytes (byteOfWord w 0) (byteOfWord w 1) (byteOfWord w 2) (byteOfWord w 3) = w := by
  simp (disch := decide) only [wordOfBytes, byteOfWord, BitVec.extractLsb'_append_extractLsb'_eq_extractLsb']
  exact BitVec.extractLsb'_eq_self

/-- OP, BANK and PIN of an encoded command (R121, R122). -/
theorem commandWord_fields (type : Variant) (bank pin op : Byte) :
    opField (commandWord type bank pin op) = op ∧ bankField (commandWord type bank pin op) = bank ∧
    pinField (commandWord type bank pin op) = pin := by
  simp (disch := decide) only [opField, bankField, pinField, commandWord, BitVec.extractLsb'_append_eq_of_le,
    BitVec.extractLsb'_append_eq_of_add_le, BitVec.extractLsb'_eq_self, Nat.reduceSub, and_self]

/-- TYPE of an encoded command (R121, R122). -/
theorem typeField_commandWord (type : Variant) (bank pin op : Byte) :
    typeField (commandWord type bank pin op) = type := by
  have hbit : (commandWord type bank pin op).getLsbD 24 = (typeBit type).getLsbD 0 := by
    simp only [commandWord, BitVec.getLsbD_append]
    rfl
  rw [typeField, hbit]
  cases type <;> rfl

/-- BANK is the word's second byte (R122). -/
theorem toNat_bankField (w : Word) : (bankField w).toNat = w.toNat / 2 ^ 8 % 256 := by
  rw [bankField, BitVec.extractLsb'_toNat, Nat.shiftRight_eq_div_pow]

/-- PIN is the word's third byte (R122). -/
theorem toNat_pinField (w : Word) : (pinField w).toNat = w.toNat / 2 ^ 16 % 256 := by
  rw [pinField, BitVec.extractLsb'_toNat, Nat.shiftRight_eq_div_pow]

/-- TYPE's bit is bit 24 of the word (R122). -/
theorem toNat_typeBit_typeField (w : Word) : (typeBit (typeField w)).toNat = w.toNat / 2 ^ 24 % 2 := by
  have hbit : w.getLsbD 24 = decide (w.toNat / 2 ^ 24 % 2 = 1) := Nat.testBit_eq_decide_div_mod_eq
  rw [typeField, hbit]
  obtain h | h : w.toNat / 2 ^ 24 % 2 = 0 ∨ w.toNat / 2 ^ 24 % 2 = 1 := by omega
  all_goals rw [h]; rfl

/-- A command word as a number (R121). -/
theorem toNat_commandWord (type : Variant) (bank pin op : Byte) :
    (commandWord type bank pin op).toNat =
      2 ^ 24 * (typeBit type).toNat + 2 ^ 16 * pin.toNat + 2 ^ 8 * bank.toNat + op.toNat := by
  simp only [commandWord, toNat_append_eq_add, BitVec.toNat_zero]
  omega

/-- The fields of a word make up its bits [24:0] (R121). -/
theorem commandWord_of_fields (w : Word) :
    commandWord (typeField w) (bankField w) (pinField w) (opField w) = w &&& 0x01FFFFFF := by
  apply BitVec.eq_of_toNat_eq
  have hmask : (w &&& 0x01FFFFFF).toNat = w.toNat % 2 ^ 25 := Nat.and_two_pow_sub_one_eq_mod w.toNat 25
  rw [toNat_commandWord, toNat_typeBit_typeField, toNat_pinField, toNat_bankField, toNat_opField, hmask]
  omega

/-- Bits [7:0] of a word are OP (R121). -/
theorem and_opMask (w : Word) : w &&& 0xFF = (opField w).setWidth 32 := by
  apply BitVec.eq_of_toNat_eq
  have hmask : (w &&& 0xFF).toNat = w.toNat % 2 ^ 8 := Nat.and_two_pow_sub_one_eq_mod w.toNat 8
  rw [hmask, BitVec.toNat_setWidth, toNat_opField]
  omega

/-! ### What an opcode decodes to -/

/-- OP 0x00 is NOP (R123). -/
theorem decodeCommand_nop (h : opField w = 0) : decodeCommand w = .ok .nop := if_pos h

/-- OP 0x01 is READ of the word's fields (R123). -/
theorem decodeCommand_read (h : opField w = 1) :
    decodeCommand w = .ok (.read (typeField w) (bankField w).toNat (pinField w).toNat) := by
  simp [decodeCommand, h]

/-- OP 0x02 is ACK (R123). -/
theorem decodeCommand_ack (h : opField w = 2) : decodeCommand w = .ok .ack := by
  simp [decodeCommand, h]

/-- OP by its number. -/
theorem opField_eq (op : Byte) (h : w.toNat % 256 = op.toNat) : opField w = op :=
  BitVec.eq_of_toNat_eq ((toNat_opField w).trans h)

/-- The opcodes below 0x03 are not reserved (R123). -/
theorem decodeCommand_of_lt (h : w.toNat % 256 < 3) : ∃ i, decodeCommand w = .ok i := by
  obtain h0 | h1 | h2 : w.toNat % 256 = 0 ∨ w.toNat % 256 = 1 ∨ w.toNat % 256 = 2 := by omega
  · exact ⟨_, decodeCommand_nop (opField_eq 0 h0)⟩
  · exact ⟨_, decodeCommand_read (opField_eq 1 h1)⟩
  · exact ⟨_, decodeCommand_ack (opField_eq 2 h2)⟩

/-- A decoded command, with the opcode and the fields it was decoded from (R122, R123). -/
theorem decodeCommand_eq_ok (h : decodeCommand w = .ok i) :
    (opField w = 0 ∧ i = .nop) ∨
    (opField w = 1 ∧ i = .read (typeField w) (bankField w).toNat (pinField w).toNat) ∨
    (opField w = 2 ∧ i = .ack) := by
  unfold decodeCommand at h
  split_ifs at h with h0 h1 h2 <;> cases h
  · exact .inl ⟨h0, rfl⟩
  · exact .inr (.inl ⟨h1, rfl⟩)
  · exact .inr (.inr ⟨h2, rfl⟩)

/-! ### Decoding undoes encoding -/

/-- A well-formed command's word decodes to it: READ's operands come back from their fields (R121 to R123). -/
theorem decodeCommand_encodeWord (hw : i.wellFormed = true) (hf : i.form = .command) :
    decodeCommand (encodeWord i) = .ok i := by
  cases i with
  | nop => rfl
  | ack => rfl
  | read type bank pin =>
    obtain ⟨hbank, hpin⟩ : bank < 256 ∧ pin < 256 := by
      simpa [Instr.wellFormed, bankFits, pinFits] using hw
    obtain ⟨hop, hbankField, hpinField⟩ :=
      commandWord_fields type (BitVec.ofNat 8 bank) (BitVec.ofNat 8 pin) 0x01
    calc decodeCommand (encodeWord (.read type bank pin))
      _ = .ok (.read _ _ _) := decodeCommand_read hop
      _ = .ok (.read type bank pin) := by
        rw [encodeWord, hbankField, hpinField, typeField_commandWord, BitVec.toNat_ofNat, BitVec.toNat_ofNat,
          Nat.mod_eq_of_lt hbank, Nat.mod_eq_of_lt hpin]
  | _ => cases hf

/-- A micro-operation's byte decodes to it (R125). -/
theorem decodePhaseByte_encodeWord (hf : i.form = .phase) :
    decodePhaseByte (byteOfWord (encodeWord i) 0) = .ok i := by
  cases i with
  | nop | read | ack => cases hf
  | _ => rfl

/-- Settles O1: in the form's bytes stands the word, and each form's decoder undoes it. -/
theorem decodeUndoesEncode : Obligations.DecodeUndoesEncode := by
  unfold Obligations.DecodeUndoesEncode
  intro i hw
  cases hf : i.form with
  | command =>
    simp only [encode, hf, decode, wordOfBytes_byteOfWord]
    exact decodeCommand_encodeWord hw hf
  | phase =>
    simp only [encode, hf, decode]
    exact decodePhaseByte_encodeWord hf

/-! ### A decoded command re-encodes -/

/-- Settles O2: READ's word is made of all the fields, NOP's and ACK's of OP alone. -/
theorem commandWordReencodes : Obligations.CommandWordReencodes := by
  unfold Obligations.CommandWordReencodes
  intro w i hd
  rw [and_opMask]
  obtain ⟨hop, rfl⟩ | ⟨hop, rfl⟩ | ⟨hop, rfl⟩ := decodeCommand_eq_ok hd
  · refine ⟨rfl, rfl, ?_⟩
    rw [hop, if_neg (by decide), and_opMask, hop]
    rfl
  · refine ⟨?_, rfl, ?_⟩
    · simp [Instr.wellFormed, bankFits, pinFits, (bankField w).isLt, (pinField w).isLt]
    · rw [hop, if_pos (by decide), ← commandWord_of_fields, hop, encodeWord, BitVec.ofNat_toNat,
        BitVec.ofNat_toNat, BitVec.setWidth_eq, BitVec.setWidth_eq]
  · refine ⟨rfl, rfl, ?_⟩
    rw [hop, if_neg (by decide), and_opMask, hop]
    rfl

/-! ### The reserved codes -/

/-- A micro-operation's phase code is the pattern of its row (R125). -/
theorem toNat_pattern_of_decodePhase (h : decodePhase c = .ok i) : i.row.pattern.toNat = c.toNat := by
  obtain ⟨hf, rfl⟩ := decodePhase_eq_ok h
  cases i with
  | nop | read | ack => cases hf
  | _ => rfl

/-- The phase codes below 12 are not reserved (R125). -/
theorem decodePhase_of_lt (h : c.toNat < 12) : ∃ i, decodePhase c = .ok i :=
  decodePhase_of_le_scale (BitVec.le_def.2 (Nat.le_of_lt_succ h))

/-- Settles O3: each code above the last named one is rejected, and each one up to it decodes, so is not rejected. -/
theorem reservedCodesAreRejected : Obligations.ReservedCodesAreRejected := by
  unfold Obligations.ReservedCodesAreRejected
  refine ⟨fun w => ⟨⟨decodeCommand_reserved, fun herr => ?_⟩, fun h => decodeCommand_nop (opField_eq 0 h),
    fun h => decodeCommand_ack (opField_eq 2 h), fun h => ?_⟩,
    fun c => ⟨⟨decodePhase_reserved, fun herr => ?_⟩, fun h => ?_⟩⟩
  · by_contra hlt
    obtain ⟨i, hok⟩ := decodeCommand_of_lt (Nat.lt_of_not_le hlt)
    cases hok.symm.trans herr
  · rw [decodeCommand_read (opField_eq 1 h), toNat_bankField, toNat_pinField, typeField]
  · by_contra hlt
    obtain ⟨i, hok⟩ := decodePhase_of_lt (Nat.lt_of_not_le hlt)
    cases hok.symm.trans herr
  · obtain ⟨i, hok⟩ := decodePhase_of_lt h
    exact ⟨i, hok, (decodePhase_eq_ok hok).1, toNat_pattern_of_decodePhase hok⟩

/-- Settles O4: each word is decoded by evaluation. -/
theorem writtenOutWordsDecode : Obligations.WrittenOutWordsDecode := by
  unfold Obligations.WrittenOutWordsDecode
  decide

end Sys2Proof.Machine
end

section
/-! A word of the opcode table, decoded by its width (log 19) and placed where the next step fetches; and the step of an
idle engine. -/

namespace Sys2Proof.Machine

open Sys2Proof

variable {s : State} {i : Instr} {nbits w : Nat}

/-- At most eight bits are a phase code (R120; log 19). -/
theorem decodePhase_of_decodeTableWord (hn : nbits ≤ 8) (h : decodeTableWord nbits w = some i) :
    decodePhase (BitVec.ofNat 4 w) = .ok i := by
  have hcode : (byteOfWord (BitVec.ofNat 32 w) 0).extractLsb' 0 4 = BitVec.ofNat 4 w := by
    rw [byteOfWord, ← BitVec.setWidth_eq_extractLsb' (by decide), BitVec.setWidth_extractLsb'_of_le (by decide),
      ← BitVec.setWidth_eq_extractLsb' (by decide), BitVec.setWidth_ofNat_of_le (by decide)]
  have hbyte : decodePhaseByte (byteOfWord (BitVec.ofNat 32 w) 0) = .ok i := by
    simp only [decodeTableWord, hn, if_true, decode] at h
    split at h <;> cases h
    assumption
  rw [decodePhaseByte, hcode] at hbyte
  split_ifs at hbyte
  exact hbyte

/-- More than eight bits are a command word (R120; log 19). -/
theorem decodeCommand_of_decodeTableWord (hn : 8 < nbits) (h : decodeTableWord nbits w = some i) :
    decodeCommand (BitVec.ofNat 32 w) = .ok i := by
  simp only [decodeTableWord, if_neg (Nat.not_le_of_lt hn), decode, wordOfBytes_byteOfWord] at h
  split at h <;> cases h
  assumption

/-- A phase code is placed in PHASE, and the turn is the engine's (log 20). -/
theorem withFetchWord_phase (s : State) (w : Nat) (hn : nbits ≤ 8) :
    s.withFetchWord nbits w =
      { s with eng := { s.eng with phase := BitVec.ofNat 4 w }, inbox := .engine :: s.inbox } :=
  if_pos hn

/-- A command word is placed as the host's next write to CMD (log 20). -/
theorem withFetchWord_command (s : State) (w : Nat) (hn : 8 < nbits) :
    s.withFetchWord nbits w = { s with inbox := .host ⟨0, 4, .write (BitVec.ofNat 32 w)⟩ :: s.inbox } :=
  if_neg (Nat.not_le_of_lt hn)

/-- Settles O7: a phase code is run by the engine's turn (O5), a command word by the host's write (O6). -/
theorem placedWordRunsNext : Obligations.PlacedWordRunsNext := by
  unfold Obligations.PlacedWordRunsNext
  intro s nbits w i h
  refine ⟨fun hn hh => ?_, fun hn => ?_⟩
  · rw [withFetchWord_phase s w hn]
    exact stepRunsThePhase.2 _ i s.inbox rfl hh (decodePhase_of_decodeTableWord hn h)
  · rw [withFetchWord_command s w hn]
    exact stepRunsTheCommand _ _ i s.inbox rfl (decodeCommand_of_decodeTableWord hn h)

/-- Settles O10: a quiet machine's step runs what PHASE names (O5), which is IDLE. -/
theorem idleWaits : Obligations.IdleWaits := by
  unfold Obligations.IdleWaits
  intro s
  have hexec : exec .idle s = .next s := rfl
  refine ⟨hexec, fun hquiet hphase => ?_⟩
  have hd : decodePhase s.eng.phase = .ok .idle := by rw [hphase]; rfl
  exact (stepRunsThePhase.1 s .idle hquiet hd).trans hexec

end Sys2Proof.Machine
end

section
/-! The commands NOP, READ and ACK of spec/40_commands.md on an idle and on a busy engine, and what they do to the output
`irq_done`: a step of an idle engine keeps it, or lowers it at a reset or a host command. -/

namespace Sys2Proof.Machine

open Sys2Proof

variable {s t : State} {i : Instr} {w : Word}

/-! ### READ -/

/-- Acceptance leaves the reset engine but for BUSY, PHASE, the latches, MAPPED and the hidden registers (R58, R151). -/
theorem acceptRead_eq (s : State) (type : Variant) (bank pin : BitVec 8) :
    s.acceptRead type bank pin = { s with eng := { Engine.reset with
      busy := true, phase := Phase.acquire, argBank := bank, argPin := pin, argType := type
      mapped := s.eng.mapped, waitCnt := s.eng.waitCnt, pollGap := s.eng.pollGap, oeHold := s.eng.oeHold
      acqPending := s.eng.acqPending } } := by
  rw [State.acceptRead, Engine.reset]

/-- STATUS right after acceptance: BUSY in bit 0 and ACQUIRE in PHASE (R47, R151). -/
theorem statusWord_acceptRead (s : State) (type : Variant) (bank pin : BitVec 8) :
    (s.acceptRead type bank pin).eng.statusWord = 0x00000011 := by
  simp only [Engine.statusWord, State.acceptRead_eng]
  decide

/-- A latch holds every argument that its field can carry (R42, R122; log 24). -/
theorem toNat_argByte {n : Nat} (h : n < 256) : (argByte n).toNat = n := by
  rw [argByte, BitVec.toNat_ofNat]
  exact Nat.mod_eq_of_lt h

/-- Settles O11: the idle engine accepts, and `acceptRead_eq` is the whole next state. -/
theorem readIsAccepted : Obligations.ReadIsAccepted := by
  unfold Obligations.ReadIsAccepted
  intro s type bank pin hb hbank hpin
  exact ⟨_, exec_read_accepted type bank pin hb, acceptRead_eq s type (argByte bank) (argByte pin), toNat_argByte hbank,
    toNat_argByte hpin, statusWord_acceptRead s type _ _⟩

/-- Settles O12: a busy engine ignores READ. -/
theorem readWhileBusyIsIgnored : Obligations.ReadWhileBusyIsIgnored := by
  unfold Obligations.ReadWhileBusyIsIgnored
  intro s type bank pin hb
  exact exec_read_ignored type bank pin hb

/-! ### NOP and ACK -/

/-- Settles O9: NOP's meaning is the state as it is, with no look at BUSY. -/
theorem nopChangesNothing : Obligations.NopChangesNothing := by
  unfold Obligations.NopChangesNothing
  intro s
  rfl

/-- Settles O13: by BUSY; of an idle engine ACK writes DONE only. -/
theorem ackClearsDoneOnly : Obligations.AckClearsDoneOnly := by
  unfold Obligations.AckClearsDoneOnly
  intro s
  cases hb : s.eng.busy with
  | true => exact exec_ack_busy hb
  | false => exact exec_ack_idle hb

/-! ### The output irq_done -/

/-- The next move is one that may lower `irq_done`: a reset, or a 32-bit host write to CMD of READ or ACK (R281, R310). -/
def State.MayLowerIrq (s : State) : Prop :=
  (∃ n rest, s.inbox = .reset n :: rest) ∨
  (∃ w rest, s.inbox = .host ⟨0, 4, .write w⟩ :: rest ∧ (w &&& 0xFF = 0x01 ∨ w &&& 0xFF = 0x02))

/-- A command keeps `irq_done`, or is a READ or an ACK that lowers it (R151, R155). -/
theorem irqDone_exec_command (hd : decodeCommand w = .ok i) (he : exec i s = .next t) :
    t.irqDone = s.irqDone ∨ (t.irqDone = false ∧ (w &&& 0xFF = 0x01 ∨ w &&& 0xFF = 0x02)) := by
  rw [and_opMask]
  obtain ⟨-, rfl⟩ | ⟨hop, rfl⟩ | ⟨hop, rfl⟩ := decodeCommand_eq_ok hd
  · cases he
    exact .inl rfl
  · obtain rfl | ⟨-, rfl⟩ := exec_read_cases he
    · exact .inl rfl
    · exact .inr ⟨rfl, .inl (by rw [hop]; rfl)⟩
  · obtain rfl | ⟨-, rfl⟩ := exec_ack_cases he
    · exact .inl rfl
    · exact .inr ⟨rfl, .inr (by rw [hop]; rfl)⟩

/-- The sequencer's turn in IDLE answers the same state (R125, R126). -/
theorem eq_of_step_idle {u : State} (hp : u.eng.phase = Phase.idle) (hfetch : fetch s = engineTurn u)
    (h : step s = .next t) : t = u := by
  obtain ⟨i, hd, he⟩ := exec_of_step_engineTurn hfetch h
  have hidle : decodePhase u.eng.phase = .ok .idle := by rw [hp]; rfl
  cases hidle.symm.trans hd
  cases he
  rfl

/-- A host access keeps `irq_done`, or is a READ or an ACK that lowers it, whatever BUSY is (R84, R281). -/
theorem irqDone_step_host {a : HostAccess} {rest : List Move} (hinbox : s.inbox = .host a :: rest)
    (h : step s = .next t) : t.irqDone = s.irqDone ∨ (t.irqDone = false ∧ s.MayLowerIrq) := by
  have hfetch : fetch s = hostTurn a { s with inbox := rest } := fetch_of_inbox_cons hinbox
  obtain ⟨w, i, hadm, hop, hoff, hd, hturn⟩ | ⟨r, hturn⟩ := hostTurn_cases a { s with inbox := rest }
  · have he := (step_of_fetch_run (hfetch.trans hturn)).symm.trans h
    obtain hkept | ⟨hlow, hw⟩ := irqDone_exec_command hd he
    · exact .inl hkept
    · have hsize : a.size = 4 := by
        simp only [HostAccess.admitted, Bool.and_eq_true, beq_iff_eq] at hadm
        exact hadm.1
      have ha : a = ⟨0, 4, .write w⟩ := by rw [← hoff, ← hsize, ← hop]
      exact .inr ⟨hlow, .inr ⟨w, rest, ha ▸ hinbox, hw⟩⟩
  · cases (step_of_fetch_settled (hfetch.trans hturn)).symm.trans h
    exact .inl rfl

/-- A step of an engine in IDLE keeps `irq_done`, or lowers it at a reset or a command: it never raises it (R281). -/
theorem irqDone_step_idle (hp : s.eng.phase = Phase.idle) (h : step s = .next t) :
    t.irqDone = s.irqDone ∨ (t.irqDone = false ∧ s.MayLowerIrq) := by
  cases hinbox : s.inbox with
  | nil =>
    obtain rfl := eq_of_step_idle hp (fetch_of_inbox_nil hinbox) h
    exact .inl rfl
  | cons m rest =>
    have hfetch : fetch s = turn m { s with inbox := rest } := fetch_of_inbox_cons hinbox
    cases m with
    | engine =>
      obtain rfl := eq_of_step_idle (u := { s with inbox := rest }) hp hfetch h
      exact .inl rfl
    | host a => exact irqDone_step_host hinbox h
    | reset n =>
      cases (step_reset hinbox).symm.trans h
      exact .inr ⟨rfl, .inl ⟨n, rest, hinbox⟩⟩
    | hang n =>
      cases (step_of_fetch_settled hfetch).symm.trans h
      obtain ⟨gap, hold, heng⟩ := hangEvent_eng n { s with inbox := rest }
      exact .inl (by simp only [State.irqDone, heng])
    | others b oe d =>
      cases (step_of_fetch_settled hfetch).symm.trans h
      exact .inl rfl

/-- DONE and BUSY exclude each other (R59 (b)). -/
theorem Engine.Legal.notBusy_of_done {e : Engine} (h : e.Legal) (hd : e.done = true) : e.busy = false := by
  rw [← Bool.not_eq_true]
  intro hb
  simp [h.busyNotDone hb] at hd

/-- Settles O50: a step that raises `irq_done` is not one of an engine in IDLE and ends in a legal state with DONE; one that
lowers it is one of an engine in IDLE. -/
theorem interruptRisesAndFallsByRule : Obligations.InterruptRisesAndFallsByRule := by
  unfold Obligations.InterruptRisesAndFallsByRule
  intro s t h hstep
  have ht : t.Legal := stepKeepsLegal s t h hstep
  refine ⟨fun hlow hhigh => ?_, fun hhigh hlow => ?_⟩
  · have hended : t.eng.busy = false := ht.engine.notBusy_of_done hhigh
    have hbusy : s.eng.busy = true := by
      rw [← Bool.not_eq_false]
      intro hb
      obtain hkept | ⟨hfalse, -⟩ := irqDone_step_idle (h.engine.idleIffNotBusy.1 hb) hstep
      · simp [hkept, hlow] at hhigh
      · simp [hfalse] at hhigh
    exact ⟨hbusy, hended, ht.engine.idleIffNotBusy.1 hended, ht.engine.doneHasOutcome hhigh⟩
  · have hidle : s.eng.busy = false := h.engine.notBusy_of_done hhigh
    obtain hkept | ⟨-, hmove⟩ := irqDone_step_idle (h.engine.idleIffNotBusy.1 hidle) hstep
    · simp [hkept, hhigh] at hlow
    · exact hmove

end Sys2Proof.Machine
end

section
/-! ACQUIRE by its cases, HS_LOW and RELEASE, and the master-port trace of the handshake and of the polls after it. -/

namespace Sys2Proof.Machine

open Sys2Proof

variable {s t : State} {b : Fin 4} {i : Instr}

/-! ### ACQUIRE -/

/-- Settles O15: no pin, a cached bank, and an uncached one whose answer is there, which `acquireBank` settles. -/
theorem acquireFollowsItsRule : Obligations.AcquireFollowsItsRule := by
  unfold Obligations.AcquireFollowsItsRule
  refine ⟨fun s hbad => ?_, fun s b hvalid hcached => ?_, fun s b r hvalid hmapped hr => ?_⟩
  · exact exec_acquire_invalid ((pinBank_eq_none_iff s).2 hbad)
  · exact exec_acquire_cached ((pinBank_eq_some_iff s b).2 hvalid) hcached
  · have hanswered : s.answerMissing = false := (answerMissing_eq_false_iff s).2 (.inr (by simp [hr]))
    have hexec := exec_acquire_asks ((pinBank_eq_some_iff s b).2 hvalid) hmapped hanswered
    obtain ⟨hbanks, -, -, -, hdatain, hoe, hacq, -, hlog⟩ := acquireBank_frame s b
    refine ⟨_, hexec, exec_sameAround hexec, hbanks, hdatain, hoe, hacq, hlog, ?_⟩
    rw [acquireBank_eng, hr]
    cases r <;> rfl

/-- Settles O16: the first look raises the request; a pending one without an answer is a stuck case of O60. -/
theorem acquireWaitsForThePlatform : Obligations.AcquireWaitsForThePlatform := by
  unfold Obligations.AcquireWaitsForThePlatform
  refine ⟨fun s b hvalid hmapped hnone hidle => ?_, fun s hwaits => ⟨?_, fun hmoves hhung hphase => ?_⟩⟩
  · have hnotPending : s.answerMissing = false := (answerMissing_eq_false_iff s).2 (.inl hidle)
    have hexec := exec_acquire_asks ((pinBank_eq_some_iff s b).2 hvalid) hmapped hnotPending
    obtain ⟨hbanks, -, -, -, hdatain, hoe, hacq, -, hlog⟩ := acquireBank_frame s b
    refine ⟨_, hexec, ?_, hbanks, exec_sameAround hexec, hdatain, hoe, hacq, ?_⟩
    · rw [acquireBank_eng, hnone]
    · rw [hlog, hidle]
      rfl
  · obtain ⟨b, hvalid, hmapped, hpending, hnone⟩ := hwaits
    exact exec_acquire_waits ((pinBank_eq_some_iff s b).2 hvalid) hmapped ((answerMissing_iff s).2 ⟨hpending, hnone⟩)
  · obtain ⟨-, -, hstuck, -⟩ := sequencerStopsOnlyWhereStuck
    exact hstuck s hmoves hhung hphase hwaits

/-! ### HS_LOW and RELEASE -/

/-- Settles O22: HS_LOW is LEVEL_LOW, a wait and a change of phase. -/
theorem hsLowDrivesThePinLow : Obligations.HsLowDrivesThePinLow := by
  unfold Obligations.HsLowDrivesThePinLow
  intro s b hvalid
  have hexec := exec_hsLow ((pinBank_eq_some_iff s b).2 hvalid)
  obtain ⟨-, hbanks, hlog, -⟩ := levelLow_spec s b
  refine ⟨_, hexec, rfl, levelLow_bank s b, fun c hc => ?_, ?_, exec_sameAround hexec, rfl, rfl, rfl⟩
  · rw [State.goto_banks, State.waitMs_banks, hbanks]
    exact banks_set_ne _ _ hc
  · rw [State.goto_log, State.waitMs_log, hlog]
    rfl

/-- The pin's bank after DIR_OUT. -/
theorem dirOut_bank (s : State) (b : Fin 4) :
    (s.dirOut b).banks[b] = ⟨s.oeWord &&& ~~~s.pinMask, s.banks[b].dataout⟩ := by
  obtain ⟨-, hbanks, -⟩ := dirOut_spec s b
  rw [hbanks]
  exact Vector.getElem_set_self _

/-- The pin's bank after DIR_IN. -/
theorem dirIn_bank (s : State) (b : Fin 4) :
    (s.dirIn b).banks[b] = ⟨s.oeWord ||| s.pinMask, s.banks[b].dataout⟩ := by
  obtain ⟨-, hbanks, -⟩ := dirIn_spec s b
  rw [hbanks]
  exact Vector.getElem_set_self _

/-- A bank whose output enables have the pin's bit set drives the pin no more (R98). -/
theorem driven_or_pinMask (s : State) (v dataout : Word) (h : s.eng.argPin.toNat < 32) :
    GpioBank.driven ⟨v ||| s.pinMask, dataout⟩ s.eng.argPin.toNat = none := by
  have hinput : (v ||| s.pinMask).getLsbD s.eng.argPin.toNat = true := by simp [getLsbD_or_pinMask s v h]
  exact if_pos hinput

/-- Settles O23: RELEASE is DIR_IN and a change of phase. -/
theorem releaseMakesThePinAnInput : Obligations.ReleaseMakesThePinAnInput := by
  unfold Obligations.ReleaseMakesThePinAnInput
  intro s b hvalid
  have hexec := exec_release ((pinBank_eq_some_iff s b).2 hvalid)
  obtain ⟨-, hbanks, hlog, hoe, -⟩ := dirIn_spec s b
  obtain ⟨-, -, -, -, -, -, -, -, hdatain, hacq⟩ := dir_frame s b
  refine ⟨_, hexec, rfl, dirIn_bank s b, ?_, fun c hc => ?_, hlog, exec_sameAround hexec, hdatain, hacq, hoe⟩
  · rw [State.goto_banks, dirIn_bank]
    exact driven_or_pinMask s _ _ hvalid.2
  · rw [State.goto_banks, hbanks]
    exact banks_set_ne _ _ hc

/-! ### The trace -/

/-- An instruction keeps the quiet of the machine it runs on. -/
theorem quiet_of_exec (hq : s.quiet) (he : exec i s = .next t) : t.quiet := by
  obtain ⟨hinbox, -, hhung⟩ := exec_sameAround he
  exact ⟨hinbox.trans hq.1, hhung.trans hq.2⟩

/-- A run of one more step is the run from the state that step answers. -/
theorem run_succ_of_step (k : Nat) (h : step s = .next t) :
    Host.Core.run Sys2Proof.core (k + 1) s = Host.Core.run Sys2Proof.core k t := by
  simp only [Host.Core.run, show Sys2Proof.core.step s = .next t from h]

/-- On a quiet machine a phase after ACQUIRE, on a pin there is when it accesses one, steps as its instruction does. -/
theorem step_quiet_phase (hq : s.quiet) (hd : decodePhase s.eng.phase = .ok i) (hne : s.eng.phase ≠ Phase.acquire)
    (hpin : accessPhase s.eng.phase = true → ∃ b, s.pinBank = some b) :
    ∃ t, exec i s = .next t ∧ step s = .next t := by
  obtain ⟨t, ht⟩ := exec_phase_progress hd (fun h => absurd h hne) hpin
  exact ⟨t, ht, (stepRunsThePhase.1 s i hq hd).trans ht⟩

/-- The three steps of the handshake put its eight events on the record (R187): HS_HIGH (O21), HS_LOW (O22), RELEASE (O23). -/
theorem run_handshake_log (hq : s.quiet) (hvalid : s.pinValid b) (hphase : s.eng.phase = Phase.hsHigh) :
    ∃ (t : State) (w1 w2 : Word), Host.Core.run Sys2Proof.core 3 s = .next t ∧ t.eng.phase = Phase.await ∧
      t.log = [.write b .oe (w2 ||| s.pinMask), .read b .oe w2, .wait 20, .write b .clr s.pinMask, .wait 500,
        .write b .set s.pinMask, .write b .oe (w1 &&& ~~~s.pinMask), .read b .oe w1] ++ s.log := by
  obtain ⟨t₁, hexec₁, heng₁, -, -, hlog₁, -⟩ := hsHighDrivesThePinHigh s b hvalid
  have hq₁ := quiet_of_exec hq hexec₁
  have hvalid₁ : t₁.pinValid b := by rw [State.pinValid, heng₁]; exact hvalid
  obtain ⟨t₂, hexec₂, heng₂, -, -, hlog₂, -⟩ := hsLowDrivesThePinLow t₁ b hvalid₁
  have hq₂ := quiet_of_exec hq₁ hexec₂
  have hvalid₂ : t₂.pinValid b := by rw [State.pinValid, heng₂]; exact hvalid₁
  obtain ⟨t₃, hexec₃, heng₃, -, -, -, hlog₃, -⟩ := releaseMakesThePinAnInput t₂ b hvalid₂
  have hpin₁ : t₁.eng.argPin = s.eng.argPin := by rw [heng₁]
  have hpin₂ : t₂.eng.argPin = s.eng.argPin := by rw [heng₂, hpin₁]
  have hstep₁ := (stepRunsThePhase.1 s .hsHigh hq (by rw [hphase]; rfl)).trans hexec₁
  have hstep₂ := (stepRunsThePhase.1 t₁ .hsLow hq₁ (by rw [heng₁]; rfl)).trans hexec₂
  have hstep₃ := (stepRunsThePhase.1 t₂ .release hq₂ (by rw [heng₂]; rfl)).trans hexec₃
  refine ⟨t₃, s.oeWord, t₂.oeWord, ?_, by rw [heng₃], ?_⟩
  · rw [run_succ_of_step _ hstep₁, run_succ_of_step _ hstep₂, run_succ_of_step _ hstep₃]
    rfl
  · rw [hlog₃, hlog₂, hlog₁, hpin₁, hpin₂]
    rfl

/-- Settles O24: the handshake's eight events, one read of DATAIN per poll, and no event of the decode phases. -/
theorem handshakeTraceIsExact : Obligations.HandshakeTraceIsExact := by
  unfold Obligations.HandshakeTraceIsExact
  refine ⟨fun s b hq hvalid hphase => ?_, fun s b hq hvalid hphase => ?_, fun s hq hphase => ?_⟩
  · obtain ⟨t, w1, w2, hrun, hawait, hlog⟩ := run_handshake_log hq hvalid hphase
    refine ⟨t, w1, w2, hrun, hawait, ?_⟩
    rw [hlog, List.reverse_append]
    rfl
  · have hpin := (pinBank_eq_some_iff s b).2 hvalid
    obtain ⟨i, hd, hi⟩ :
        ∃ i, decodePhase s.eng.phase = .ok i ∧ (i = .await ∨ i = .capLow ∨ i = .capHigh) := by
      rcases hphase with h | h | h <;> rw [h] <;> exact ⟨_, rfl, by simp⟩
    have hne : s.eng.phase ≠ Phase.acquire := by rcases hphase with h | h | h <;> simp [h]
    obtain ⟨t, hexec, hstep⟩ := step_quiet_phase hq hd hne fun _ => ⟨b, hpin⟩
    obtain ⟨b', hpin', -, hlog⟩ := exec_poll_phase_port hi hexec
    obtain rfl : b = b' := Option.some.inj (hpin.symm.trans hpin')
    exact ⟨t, s.datainWord, hstep, hlog⟩
  · obtain ⟨i, hd, hi⟩ :
        ∃ i, decodePhase s.eng.phase = .ok i ∧ (i = .thresh ∨ i = .decode ∨ i = .check ∨ i = .scale) := by
      rcases hphase with h | h | h | h <;> rw [h] <;> exact ⟨_, rfl, by simp⟩
    have hne : s.eng.phase ≠ Phase.acquire := by rcases hphase with h | h | h | h <;> simp [h]
    have hnoAccess : accessPhase s.eng.phase = false := by rcases hphase with h | h | h | h <;> rw [h] <;> rfl
    obtain ⟨t, hexec, hstep⟩ := step_quiet_phase hq hd hne fun h => by simp [hnoAccess] at h
    exact ⟨t, hstep, (exec_port_unused hexec (.inr (.inr (.inr (.inr hi))))).2⟩

end Sys2Proof.Machine
end

section
/-! A reset in the middle of a step: what the accesses already made leave in the banks. -/

namespace Sys2Proof.Machine

open Sys2Proof

variable {s : State} {b : Fin 4} {n : Nat}

/-! ### The interrupted step -/

/-- A step of which no access has been made, or that makes none, has done nothing (R310). -/
theorem inFlight_eq_self (h : n = 0 ∨ accessPhase s.eng.phase = false) : s.inFlight n = s := by
  cases hp : s.pinBank with
  | none => simp only [State.inFlight, hp]
  | some b =>
    rw [inFlight_of_pinBank n hp]
    obtain rfl | hno := h
    · exact if_pos rfl
    · simp only [accessPhase, Bool.or_eq_false_iff, decide_eq_false_iff_not] at hno
      simp only [hno, or_self, if_false, ite_self]

section
variable (hp : s.pinBank = some b)
include hp

/-- HS_HIGH interrupted: the read of OE, then its write, then the write of SET (R184). -/
theorem inFlight_hsHigh (hphase : s.eng.phase = Phase.hsHigh) (hn : n ≠ 0) :
    s.inFlight n = if n = 1 then s.readOe b else if n = 2 then s.dirOut b else (s.dirOut b).levelHigh b := by
  rw [inFlight_of_pinBank n hp, if_neg hn, if_pos hphase]

/-- HS_LOW interrupted after its one access (R185). -/
theorem inFlight_hsLow (hphase : s.eng.phase = Phase.hsLow) (hn : n ≠ 0) : s.inFlight n = s.levelLow b := by
  rw [inFlight_of_pinBank n hp, if_neg hn, hphase]
  rfl

/-- RELEASE interrupted: the read of OE, then its write (R186). -/
theorem inFlight_release (hphase : s.eng.phase = Phase.release) (hn : n ≠ 0) :
    s.inFlight n = if n = 1 then s.readOe b else s.dirIn b := by
  rw [inFlight_of_pinBank n hp, if_neg hn, hphase]
  rfl

/-- A poll phase interrupted: its read of DATAIN changes no bank (R99). -/
theorem inFlight_poll_banks (n : Nat)
    (hphase : s.eng.phase = Phase.await ∨ s.eng.phase = Phase.capLow ∨ s.eng.phase = Phase.capHigh) :
    (s.inFlight n).banks = s.banks := by
  by_cases hn : n = 0
  · rw [inFlight_eq_self (.inl hn)]
  · rw [inFlight_of_pinBank n hp, if_neg hn]
    rcases hphase with h | h | h <;> rw [h] <;> rfl

/-- An interrupted step changes the handle's bank only. -/
theorem inFlight_banks_eq_set (n : Nat) : ∃ g, (s.inFlight n).banks = s.banks.set b g := by
  have hkept : s.banks = s.banks.set b s.banks[b] := (Vector.set_getElem_self _).symm
  obtain ⟨-, hout, -⟩ := dirOut_spec s b
  obtain ⟨-, hin, -⟩ := dirIn_spec s b
  rw [inFlight_of_pinBank n hp]
  split_ifs
  · exact ⟨_, hkept⟩
  · exact ⟨_, State.readOe_banks s b⟩
  · exact ⟨_, hout⟩
  · exact ⟨_, levelHigh_dirOut_banks s b⟩
  · exact ⟨_, rfl⟩
  · exact ⟨_, State.readOe_banks s b⟩
  · exact ⟨_, hin⟩
  · exact ⟨_, hkept⟩
  · exact ⟨_, hkept⟩

end

/-- An interrupted step leaves the banks that ARG_BANK does not name. -/
theorem inFlight_bank_ne (n : Nat) (h : s.eng.argBank.toNat ≠ b.val) : (s.inFlight n).banks[b] = s.banks[b] := by
  cases hp : s.pinBank with
  | none => simp only [State.inFlight, hp]
  | some c =>
    obtain ⟨g, hbanks⟩ := inFlight_banks_eq_set hp n
    obtain ⟨hbank, -⟩ := (pinBank_eq_some_iff s c).1 hp
    rw [hbanks]
    exact banks_set_ne _ _ fun hbc => h (hbc ▸ hbank)

/-- The pin's bank after the read half of a direction change: OE as read. -/
theorem readOe_bank (s : State) (b : Fin 4) : (s.readOe b).banks[b] = ⟨s.oeWord, s.banks[b].dataout⟩ :=
  Vector.getElem_set_self _

/-- The pin's bank after DIR_OUT and LEVEL_HIGH. -/
theorem levelHigh_dirOut_bank (s : State) (b : Fin 4) :
    ((s.dirOut b).levelHigh b).banks[b] = ⟨s.oeWord &&& ~~~s.pinMask, s.banks[b].dataout ||| s.pinMask⟩ := by
  rw [levelHigh_dirOut_banks]
  exact Vector.getElem_set_self _

/-! ### The reset -/

/-- Where no access hangs a reset leaves the banks and the record where the interrupted step had brought them (R310,
R312; log 16). -/
theorem resetEvent_port_of_not_hung (n : Nat) (hh : s.hung = false) :
    (s.resetEvent n).banks = (s.inFlight n).banks ∧ (s.resetEvent n).log = (s.inFlight n).log := by
  simp [State.resetEvent, hh]

/-- While an access hangs a reset leaves the banks and the record as they were (log 16, log 18). -/
theorem resetEvent_port_of_hung (n : Nat) (hh : s.hung = true) :
    (s.resetEvent n).banks = s.banks ∧ (s.resetEvent n).log = s.log := by
  simp [State.resetEvent, hh]

/-- The same of the step of a reset move, whose taking from the inbox changes neither. -/
theorem step_reset_port {rest : List Move} (h : s.inbox = .reset n :: rest) :
    ∃ t, step s = .next t ∧
      (s.hung = false → t.banks = (s.inFlight n).banks ∧ t.log = (s.inFlight n).log) ∧
      (s.hung = true → t.banks = s.banks ∧ t.log = s.log) := by
  refine ⟨_, step_reset h, fun hh => ?_, fun hh => resetEvent_port_of_hung n hh⟩
  obtain ⟨hbanks, hlog⟩ := resetEvent_port_of_not_hung (s := { s with inbox := rest }) n hh
  rw [hbanks, hlog, inFlight_with_inbox]
  exact ⟨rfl, rfl⟩

/-- Settles O58: the banks of the step's accesses already made, phase by phase. -/
theorem resetLeavesTheBanks : Obligations.ResetLeavesTheBanks := by
  unfold Obligations.ResetLeavesTheBanks
  intro s n rest hinbox
  obtain ⟨t, hstep, hport, hhang⟩ := step_reset_port hinbox
  refine ⟨t, hstep, hport, fun hnone => ?_, fun b hne => ?_, fun b hvalid hh => ?_⟩
  · cases hh : s.hung with
    | true => exact hhang hh
    | false =>
      have hno : n = 0 ∨ accessPhase s.eng.phase = false := by simpa [hh] using hnone
      have hport := hport hh
      rwa [inFlight_eq_self hno] at hport
  · cases hh : s.hung with
    | true => rw [(hhang hh).1]
    | false => rw [(hport hh).1, inFlight_bank_ne n hne]
  · have hp := (pinBank_eq_some_iff s b).2 hvalid
    rw [(hport hh).1]
    refine ⟨?_, fun hn hphase => ?_, ?_, fun hn hphase => ?_, fun hn hphase => ?_, inFlight_poll_banks hp n⟩
    · rintro rfl (hphase | hphase)
      · rw [inFlight_hsHigh hp hphase one_ne_zero]
        exact readOe_bank s b
      · rw [inFlight_release hp hphase one_ne_zero]
        exact readOe_bank s b
    · rw [inFlight_release hp hphase (by omega), if_neg (by omega)]
      exact dirIn_bank s b
    · rintro rfl hphase
      rw [inFlight_hsHigh hp hphase two_ne_zero]
      exact dirOut_bank s b
    · rw [inFlight_hsHigh hp hphase (by omega), if_neg (by omega), if_neg (by omega)]
      exact levelHigh_dirOut_bank s b
    · rw [inFlight_hsLow hp hphase (by omega)]
      exact levelLow_bank s b

end Sys2Proof.Machine
end

section
/-! One poll of AWAIT, CAP_LOW and CAP_HIGH (spec/42_capture.md R201, R204, R206): what it does outside the engine, the
same for the three phases, and the engine it leaves, phase by phase. -/

namespace Sys2Proof.Machine

open Sys2Proof

variable {s : State} {b : Fin 4} {i : Instr}

/-- A poll phase completes on every valid handle, and outside the engine it is its one poll. -/
theorem exec_poll_phase_next (hi : i = .await ∨ i = .capLow ∨ i = .capHigh) (hp : s.pinBank = some b) :
    ∃ t, exec i s = .next t ∧ t = { s.poll b with eng := t.eng } := by
  have hawait : (s.poll b).countAwait = { s.poll b with eng := (s.poll b).countAwait.eng } := by
    simp only [State.countAwait]
    split <;> rfl
  have hpulse (k : Fin 82) : (s.poll b).countPulse k = { s.poll b with eng := ((s.poll b).countPulse k).eng } := by
    simp only [State.countPulse]
    split <;> rfl
  have hpair : (s.poll b).endPair = { s.poll b with eng := (s.poll b).endPair.eng } := by
    simp only [State.endPair]
    split <;> rfl
  cases hl : s.datainWord.getLsbD s.eng.argPin.toNat with
  | true =>
    rcases hi with rfl | rfl | rfl
    · exact ⟨_, exec_await_high hp hl, hawait⟩
    · exact ⟨_, exec_capLow_high hp hl, rfl⟩
    · exact ⟨_, exec_capHigh_high hp hl, hpulse _⟩
  | false =>
    rcases hi with rfl | rfl | rfl
    · exact ⟨_, exec_await_low hp hl, rfl⟩
    · exact ⟨_, exec_capLow_low hp hl, hpulse _⟩
    · exact ⟨_, exec_capHigh_low hp hl, hpair⟩

/-- A poll phase completes on every valid handle with one DATAIN read, and leaves the rest outside the engine alone. -/
theorem exec_poll_phase_frame (hi : i = .await ∨ i = .capLow ∨ i = .capHigh) (hp : s.pinBank = some b) :
    ∃ t, exec i s = .next t ∧ t.banks = s.banks ∧ t.log = .read b .datain s.datainWord :: s.log ∧
      t.datainIn = s.datainIn.tail ∧ t.oeIn = s.oeIn ∧ t.acqIn = s.acqIn ∧ s.sameAround t := by
  obtain ⟨t, he, heq⟩ := exec_poll_phase_next hi hp
  have field {α : Type} (f : State → α) : f t = f { s.poll b with eng := t.eng } := congrArg f heq
  exact ⟨t, he, field State.banks, field State.log, field State.datainIn, field State.oeIn, field State.acqIn,
    exec_sameAround he⟩

/-- Settles O25: by the level, and on a high one by whether the count reaches the ceiling. -/
theorem awaitCountsHighPolls : Obligations.AwaitCountsHighPolls := by
  unfold Obligations.AwaitCountsHighPolls
  intro s b hvalid
  have hp := (pinBank_eq_some_iff s b).2 hvalid
  obtain ⟨t, he, hbanks, hlog, hdatain, hoe, hacq, haround⟩ := exec_poll_phase_frame (.inl rfl) hp
  refine ⟨t, he, hbanks, hlog, hdatain, hoe, hacq, haround, ?_⟩
  cases hl : s.datainWord.getLsbD s.eng.argPin.toNat with
  | true =>
    cases (exec_await_high hp hl).symm.trans he
    rw [if_pos rfl]
    by_cases hc : 32000 ≤ (s.eng.awaitCount + 1).toNat
    · rw [if_pos hc, countAwait_eng_ceiling (s.poll b) hc]
      rfl
    · rw [if_neg hc, countAwait_eng_below (s.poll b) hc]
      rfl
  | false =>
    cases (exec_await_low hp hl).symm.trans he
    rfl

/-- Settles O26: by the level, and on a low one by whether the count of `LOW[k]` reaches the ceiling. -/
theorem capLowCountsLowPolls : Obligations.CapLowCountsLowPolls := by
  unfold Obligations.CapLowCountsLowPolls
  intro s b hvalid
  have hp := (pinBank_eq_some_iff s b).2 hvalid
  obtain ⟨t, he, hbanks, hlog, hdatain, hoe, hacq, haround⟩ := exec_poll_phase_frame (.inr (.inl rfl)) hp
  refine ⟨t, he, hbanks, hlog, hdatain, hoe, hacq, haround, ?_⟩
  cases hl : s.datainWord.getLsbD s.eng.argPin.toNat with
  | true =>
    cases (exec_capLow_high hp hl).symm.trans he
    rfl
  | false =>
    cases (exec_capLow_low hp hl).symm.trans he
    rw [if_pos rfl]
    by_cases hc : 32000 ≤ (s.eng.pulse[2 * s.eng.pair.val] + 1).toNat
    · rw [if_pos hc, countPulse_eng_ceiling (s.poll b) (lowSlot s.eng.pair) hc]
      rfl
    · rw [if_neg hc, countPulse_eng_below (s.poll b) (lowSlot s.eng.pair) hc]
      rfl

/-- Settles O27: by the level; on a high one by whether the count of `HIGH[k]` reaches the ceiling, on a low one by
whether a pair is left. -/
theorem capHighCountsHighPolls : Obligations.CapHighCountsHighPolls := by
  unfold Obligations.CapHighCountsHighPolls
  intro s b hvalid
  have hp := (pinBank_eq_some_iff s b).2 hvalid
  obtain ⟨t, he, hbanks, hlog, hdatain, hoe, hacq, haround⟩ := exec_poll_phase_frame (.inr (.inr rfl)) hp
  refine ⟨t, he, hbanks, hlog, hdatain, hoe, hacq, haround, ?_⟩
  cases hl : s.datainWord.getLsbD s.eng.argPin.toNat with
  | true =>
    cases (exec_capHigh_high hp hl).symm.trans he
    rw [if_pos rfl]
    by_cases hc : 32000 ≤ (s.eng.pulse[2 * s.eng.pair.val + 1] + 1).toNat
    · rw [if_pos hc, countPulse_eng_ceiling (s.poll b) (highSlot s.eng.pair) hc]
      rfl
    · rw [if_neg hc, countPulse_eng_below (s.poll b) (highSlot s.eng.pair) hc]
      rfl
  | false =>
    cases (exec_capHigh_low hp hl).symm.trans he
    rw [if_neg Bool.false_ne_true]
    by_cases hk : s.eng.pair.val < 40
    · rw [dif_pos hk, endPair_eng_next (s.poll b) hk]
      rfl
    · rw [dif_neg hk, endPair_eng_last (s.poll b) hk]
      rfl

end Sys2Proof.Machine
end

section
/-! The slots the capture has not reached stay zero (R201, R204, R206, R208): a step moves the frontier forward only,
and counts below it. -/

namespace Sys2Proof.Machine

open Sys2Proof

variable {s t : State} {e e' : Engine} {i : Instr}

/-! ### The frontier -/

/-- During a read the frontier is given by the position (R201, R204, R206). -/
theorem frontier_of_busy (h : e.busy = true) : e.frontier = captureFrontier e.phase e.pair := if_pos h

/-- After a timeout the frontier is given by the place of the timeout (R208). -/
theorem frontier_of_timeout (h : e.busy = false) (ho : e.outcome = .timeout) :
    e.frontier = captureFrontier e.failPhase e.pair := by
  simp [Engine.frontier, h, ho]

/-- With no read in progress and no timeout no slot is beyond the frontier. -/
theorem frontier_of_completed (h : e.busy = false) (ho : e.outcome ≠ .timeout) : e.frontier = 82 := by
  simp [Engine.frontier, h, ho]

/-- Up to AWAIT no slot is reached (R201). -/
theorem captureFrontier_of_le_await {p : BitVec 4} (h : p ≤ Phase.await) (k : Fin 41) : captureFrontier p k = 0 :=
  if_pos h

@[simp] theorem captureFrontier_capLow (k : Fin 41) : captureFrontier Phase.capLow k = 2 * k.val + 1 := rfl

@[simp] theorem captureFrontier_capHigh (k : Fin 41) : captureFrontier Phase.capHigh k = 2 * k.val + 2 := rfl

/-- From THRESH on every slot is reached (R206). -/
theorem captureFrontier_of_thresh_le {p : BitVec 4} (h : Phase.thresh ≤ p) (k : Fin 41) :
    captureFrontier p k = 82 := by
  have later : ∀ p : BitVec 4, Phase.thresh ≤ p → ¬p ≤ Phase.await ∧ p ≠ Phase.capLow ∧ p ≠ Phase.capHigh := by
    decide
  obtain ⟨hawait, hlow, hhigh⟩ := later p h
  rw [captureFrontier, if_neg hawait, if_neg hlow, if_neg hhigh]

/-! ### What keeps the later slots zero -/

/-- When the frontier moves forward, or stays, over an unchanged pulse file. -/
theorem Engine.LaterSlotsZero.advance (h : e.LaterSlotsZero) (hpulse : e'.pulse = e.pulse)
    (hle : e.frontier ≤ e'.frontier) : e'.LaterSlotsZero := by
  intro k hk
  rw [hpulse]
  exact h k (hle.trans hk)

/-- Where no slot is beyond the frontier there is nothing to ask. -/
theorem laterSlotsZero_of_frontier (h : e.frontier = 82) : e.LaterSlotsZero := by
  intro k hk
  omega

/-- When a slot before the frontier is written and the frontier stays. -/
theorem Engine.LaterSlotsZero.set (h : e.LaterSlotsZero) {k : Fin 82} {v : BitVec 16} (hk : k.val < e.frontier)
    (hpulse : e'.pulse = e.pulse.set k v) (hfrontier : e'.frontier = e.frontier) : e'.LaterSlotsZero := by
  intro j hj
  have hne : k.val ≠ j.val := by omega
  rw [hpulse, Fin.getElem_fin, Vector.getElem_set_ne _ _ hne]
  exact h j (hfrontier ▸ hj)

/-- A completion other than TIMEOUT leaves no slot beyond the frontier. -/
theorem laterSlotsZero_complete {code : ReadOutcome} (h : code ≠ .timeout) : (s.complete code).eng.LaterSlotsZero :=
  laterSlotsZero_of_frontier (frontier_of_completed rfl h)

/-- A timeout fixes the frontier where the read is (R208). -/
theorem frontier_complete_timeout (h : s.eng.busy = true) : (s.complete .timeout).eng.frontier = s.eng.frontier := by
  rw [frontier_of_busy h]
  exact frontier_of_timeout rfl rfl

/-- A read that counts a pulse in a slot before the frontier (R204, R206). -/
theorem laterSlotsZero_countPulse (h : s.eng.LaterSlotsZero) (hb : s.eng.busy = true) {k : Fin 82}
    (hk : k.val < s.eng.frontier) : (s.countPulse k).eng.LaterSlotsZero := by
  have counted : (s.bumpPulse k).eng.LaterSlotsZero := h.set hk rfl rfl
  obtain ⟨-, heng⟩ | ⟨-, heng⟩ := countPulse_eng_cases s k
  · rw [heng]
    exact counted
  · rw [heng]
    exact counted.advance rfl (frontier_complete_timeout hb).ge

/-! ### The instructions -/

/-- In a read up to AWAIT any change of the engine outside the pulse file keeps every slot zero. -/
theorem Engine.LaterSlotsZero.of_le_await (h : e.LaterSlotsZero) (hb : e.busy = true) (hp : e.phase ≤ Phase.await)
    (hpulse : e'.pulse = e.pulse) : e'.LaterSlotsZero := by
  refine h.advance hpulse ?_
  rw [frontier_of_busy hb, captureFrontier_of_le_await hp]
  exact Nat.zero_le _

/-- From THRESH on a read has counted in every slot. -/
theorem laterSlotsZero_of_thresh_le (hb : e.busy = true) (hp : Phase.thresh ≤ e.phase) : e.LaterSlotsZero :=
  laterSlotsZero_of_frontier ((frontier_of_busy hb).trans (captureFrontier_of_thresh_le hp _))

/-- Only READ, CAP_LOW and CAP_HIGH write the pulse file (R32). -/
theorem exec_pulse_eq (he : exec i s = .next t) (hform : i.form = .phase) (hlow : i ≠ .capLow)
    (hhigh : i ≠ .capHigh) : t.eng.pulse = s.eng.pulse := by
  by_contra hne
  obtain ⟨hpulse, -⟩ := eachRegisterHasItsWriters i s t he
  obtain ⟨type, bank, pin, rfl⟩ | rfl | rfl := hpulse hne
  · cases hform
  · exact hlow rfl
  · exact hhigh rfl

/-- CAP_LOW counts in slot 2k, or leaves it and goes on to CAP_HIGH (R204). -/
theorem laterSlotsZero_exec_capLow (h : s.eng.LaterSlotsZero) (hb : s.eng.busy = true)
    (hp : s.eng.phase = Phase.capLow) (he : exec .capLow s = .next t) : t.eng.LaterSlotsZero := by
  have hfrontier : s.eng.frontier = 2 * s.eng.pair.val + 1 := by rw [frontier_of_busy hb, hp, captureFrontier_capLow]
  obtain ⟨b, -, rfl | rfl⟩ := exec_capLow_cases he
  · have hslot : (lowSlot s.eng.pair).val < (s.poll b).eng.frontier := hfrontier.symm ▸ Nat.lt_succ_self _
    exact laterSlotsZero_countPulse (s := s.poll b) h hb hslot
  · have hnext : ((s.poll b).goto Phase.capHigh).eng.frontier = 2 * s.eng.pair.val + 2 := frontier_of_busy hb
    exact h.advance rfl (by omega)

/-- The end of a pair moves the frontier to the next pair, or past the last slot (R206). -/
theorem laterSlotsZero_endPair (h : s.eng.LaterSlotsZero) (hb : s.eng.busy = true) (hp : s.eng.phase = Phase.capHigh) :
    s.endPair.eng.LaterSlotsZero := by
  have hfrontier : s.eng.frontier = 2 * s.eng.pair.val + 2 := by rw [frontier_of_busy hb, hp, captureFrontier_capHigh]
  by_cases hk : s.eng.pair.val < 40
  · have heng := endPair_eng_next s hk
    have hnext : s.endPair.eng.frontier = 2 * (s.eng.pair.val + 1) + 1 := by
      rw [heng]
      exact frontier_of_busy hb
    exact h.advance (by rw [heng]) (by omega)
  · rw [endPair_eng_last s hk]
    exact laterSlotsZero_of_thresh_le hb (by simp)

/-- CAP_HIGH counts in slot 2k + 1, or leaves it and goes on to the next pair or to THRESH (R206). -/
theorem laterSlotsZero_exec_capHigh (h : s.eng.LaterSlotsZero) (hb : s.eng.busy = true)
    (hp : s.eng.phase = Phase.capHigh) (he : exec .capHigh s = .next t) : t.eng.LaterSlotsZero := by
  have hfrontier : s.eng.frontier = 2 * s.eng.pair.val + 2 := by rw [frontier_of_busy hb, hp, captureFrontier_capHigh]
  obtain ⟨b, -, rfl | rfl⟩ := exec_capHigh_cases he
  · have hslot : (highSlot s.eng.pair).val < (s.poll b).eng.frontier := hfrontier.symm ▸ Nat.lt_succ_self _
    exact laterSlotsZero_countPulse (s := s.poll b) h hb hslot
  · exact laterSlotsZero_endPair (s := s.poll b) h hb hp

/-- The micro-operation that PHASE names keeps the later slots zero. -/
theorem laterSlotsZero_exec_phase (hlegal : s.eng.Legal) (h : s.eng.LaterSlotsZero)
    (hd : decodePhase s.eng.phase = .ok i) (he : exec i s = .next t) : t.eng.LaterSlotsZero := by
  obtain ⟨hform, hp⟩ := decodePhase_eq_ok hd
  have busy (hne : s.eng.phase ≠ Phase.idle) : s.eng.busy = true := (hlegal.reading hne).busy
  have early (hne : s.eng.phase ≠ Phase.idle) (hle : s.eng.phase ≤ Phase.await) (hlow : i ≠ .capLow)
      (hhigh : i ≠ .capHigh) : t.eng.LaterSlotsZero :=
    h.of_le_await (busy hne) hle (exec_pulse_eq he hform hlow hhigh)
  cases i with
  | nop => cases hform
  | read type bank pin => cases hform
  | ack => cases hform
  | idle => cases he; exact h
  | acquire => exact early (by rw [hp]; decide) (by rw [hp]; decide) nofun nofun
  | hsHigh => exact early (by rw [hp]; decide) (by rw [hp]; decide) nofun nofun
  | hsLow => exact early (by rw [hp]; decide) (by rw [hp]; decide) nofun nofun
  | release => exact early (by rw [hp]; decide) (by rw [hp]; decide) nofun nofun
  | await => exact early (by rw [hp]; decide) (by rw [hp]; decide) nofun nofun
  | capLow => exact laterSlotsZero_exec_capLow h (busy (by rw [hp]; decide)) hp he
  | capHigh => exact laterSlotsZero_exec_capHigh h (busy (by rw [hp]; decide)) hp he
  | thresh => cases he; exact laterSlotsZero_of_thresh_le (busy (by rw [hp]; decide)) (by simp)
  | decode => cases he; exact laterSlotsZero_of_thresh_le (busy (by rw [hp]; decide)) (by simp)
  | check =>
    obtain ⟨-, rfl⟩ | ⟨-, rfl⟩ := exec_check_cases he
    · exact laterSlotsZero_of_thresh_le (busy (by rw [hp]; decide)) (by simp)
    · exact laterSlotsZero_complete (by decide)
  | scale => obtain rfl | rfl := exec_scale_cases he <;> exact laterSlotsZero_complete (by decide)

/-- An accepted READ and a reset have cleared every slot (R151, R58). -/
theorem laterSlotsZero_of_cleared (h : e.pulse = Vector.replicate 82 0) : e.LaterSlotsZero := by
  intro k _
  rw [h]
  exact Vector.getElem_replicate _

/-- A command clears every slot, or changes none and no part of the frontier (R150 to R155). -/
theorem laterSlotsZero_exec_command {w : Word} (h : s.eng.LaterSlotsZero) (hd : decodeCommand w = .ok i)
    (he : exec i s = .next t) : t.eng.LaterSlotsZero := by
  obtain rfl | ⟨type, bank, pin, rfl⟩ | rfl := decodeCommand_cases hd
  · cases he; exact h
  · obtain rfl | ⟨-, rfl⟩ := exec_read_cases he
    · exact h
    · exact laterSlotsZero_of_cleared rfl
  · obtain rfl | ⟨-, rfl⟩ := exec_ack_cases he
    · exact h
    · exact h

/-- Settles O46: by the agent that moves; of the sequencer's moves, by the phase. -/
theorem laterSlotsStayZero : Obligations.LaterSlotsStayZero := by
  unfold Obligations.LaterSlotsStayZero
  intro s t hlegal h hstep
  obtain ⟨u, ⟨rest, rfl⟩, hmove⟩ := step_cases hstep
  obtain ⟨i, -, hd, he⟩ | ⟨w, i, hd, he⟩ | ⟨r, rfl⟩ | ⟨n, rfl⟩ | ⟨n, rfl⟩ | ⟨b, oe, d, rfl⟩ := hmove
  · exact laterSlotsZero_exec_phase (s := { s with inbox := rest }) hlegal.engine h hd he
  · exact laterSlotsZero_exec_command (s := { s with inbox := rest, reply := some .written }) h hd he
  · exact h
  · exact laterSlotsZero_of_cleared rfl
  · obtain ⟨gap, hold, heng⟩ := hangEvent_eng n { s with inbox := rest }
    rw [heng]
    exact h
  · exact h

end Sys2Proof.Machine
end

section
/-! The pure capture of R209 counts its polls: what one polling loop uses, what the pairs use, and the bound of R210. -/

namespace Sys2Proof.Machine

open Sys2Proof

variable {level : Bool} {count n await total fuel k : Nat} {slots : List Nat} {levels rest : List Bool}
  {r : CaptureResult}

/-! ### One polling loop -/

/-- A loop that the other level ends has counted all its polls but the last, and stayed below the ceiling. -/
theorem countLoop_other (hcount : count < 32000) (h : countLoop level count levels = some (.other n rest)) :
    n < 32000 ∧ levels.length + count = rest.length + n + 1 := by
  induction levels generalizing count with
  | nil => cases h
  | cons v vs ih =>
    rw [countLoop] at h
    split_ifs at h with hv hc
    · cases h
    · have := ih (not_le.1 hc) h
      simp only [List.length_cons]
      omega
    · cases h
      simp only [List.length_cons]
      omega

/-- A loop that times out has counted every poll, up to the ceiling (R208). -/
theorem countLoop_ceiling (hcount : count < 32000) (h : countLoop level count levels = some (.ceiling n rest)) :
    n = 32000 ∧ levels.length + count = rest.length + n := by
  induction levels generalizing count with
  | nil => cases h
  | cons v vs ih =>
    rw [countLoop] at h
    split_ifs at h with hv hc
    · cases h
      simp only [List.length_cons]
      omega
    · have := ih (not_le.1 hc) h
      simp only [List.length_cons]
      omega
    · cases h

/-- A loop with enough levels to reach the ceiling ends (R208). -/
theorem countLoop_isSome (hcount : count < 32000) (h : 32000 ≤ count + levels.length) :
    (countLoop level count levels).isSome = true := by
  induction levels generalizing count with
  | nil =>
    simp only [List.length_nil] at h
    omega
  | cons v vs ih =>
    rw [countLoop]
    split_ifs with hv hc
    · rfl
    · simp only [List.length_cons] at h
      exact ih (not_le.1 hc) (by omega)
    · rfl

/-! ### The three ways through a pair, and the two through the response wait -/

/-- A pair that is captured from times out in its low pulse or in its high pulse, or hands on to the next. -/
theorem capturePairs_cases (h : capturePairs await total (fuel + 1) k slots levels = some r) :
    (∃ n rest, countLoop false 0 levels = some (.ceiling n rest) ∧
      r = ⟨some Phase.capLow, k, await, slots ++ [n], total - rest.length⟩) ∨
    ∃ low mid, countLoop false 0 levels = some (.other low mid) ∧
      ((∃ n rest, countLoop true 0 mid = some (.ceiling n rest) ∧
        r = ⟨some Phase.capHigh, k, await, slots ++ [low, n], total - rest.length⟩) ∨
      ∃ high rest, countLoop true 0 mid = some (.other high rest) ∧
        capturePairs await total fuel (k + 1) (slots ++ [low, high]) rest = some r) := by
  rw [capturePairs] at h
  split at h
  next => cases h
  next n rest hlow => cases h; exact .inl ⟨n, rest, hlow, rfl⟩
  next low mid hlow =>
    refine .inr ⟨low, mid, hlow, ?_⟩
    split at h
    next => cases h
    next n rest hhigh => cases h; exact .inl ⟨n, rest, hhigh, rfl⟩
    next high rest hhigh => exact .inr ⟨high, rest, hhigh, h⟩

/-- A capture times out in AWAIT, or goes on to its 41 pairs. -/
theorem capture_cases (h : capture levels = some r) :
    (∃ n rest, countLoop true 0 levels = some (.ceiling n rest) ∧
      r = ⟨some Phase.await, 0, n, [], levels.length - rest.length⟩) ∨
    ∃ n rest, countLoop true 0 levels = some (.other n rest) ∧
      capturePairs n levels.length 41 0 [] rest = some r := by
  rw [capture] at h
  split at h
  next => cases h
  next n rest hawait => cases h; exact .inl ⟨n, rest, hawait, rfl⟩
  next n rest hawait => exact .inr ⟨n, rest, hawait, h⟩

/-! ### A capture in progress, and its result -/

/-- The polls that counted `slots`: each slot's own and the one that ended it. -/
def pollsOf (slots : List Nat) : Nat := (slots.map (· + 1)).sum

@[simp] theorem pollsOf_append (l l' : List Nat) : pollsOf (l ++ l') = pollsOf l + pollsOf l' := by
  simp [pollsOf]

@[simp] theorem pollsOf_nil : pollsOf [] = 0 := rfl

@[simp] theorem pollsOf_cons (n : Nat) (l : List Nat) : pollsOf (n :: l) = n + 1 + pollsOf l := by
  simp [pollsOf]

/-- Slots below the ceiling took at most the ceiling's polls each (R210). -/
theorem pollsOf_le (h : ∀ n ∈ slots, n < 32000) : pollsOf slots ≤ slots.length * 32000 := by
  have hmap : ∀ m ∈ slots.map (· + 1), m ≤ 32000 := by simpa using fun n hn => h n hn
  simpa [pollsOf] using List.sum_le_card_nsmul _ _ hmap

/-- A capture with `left` slots to count and the levels `rest` left of `total`, and no counter at the ceiling so far. -/
structure CaptureInProgress (await total left : Nat) (slots : List Nat) (rest : List Bool) : Prop where
  awaitBelow : await < 32000
  slotsBelow : ∀ n ∈ slots, n < 32000
  slotsLeft : slots.length + left = 82
  pollsUsed : total = rest.length + (await + 1) + pollsOf slots

/-- What every result of a capture meets (R210). -/
structure CaptureResult.Bounded (r : CaptureResult) : Prop where
  awaitBound : r.await ≤ 32000
  slotsBound : ∀ n ∈ r.slots, n ≤ 32000
  slotsFit : r.slots.length ≤ 82
  pollsBound : r.polls ≤ 83 * 32000
  ofSuccess : r.timeout = none → r.slots.length = 82 ∧ r.polls = r.await + 1 + pollsOf r.slots

/-- A loop that the other level ends adds its slot and its polls. -/
theorem CaptureInProgress.slot {left : Nat} (c : CaptureInProgress await total (left + 1) slots levels)
    (h : countLoop level 0 levels = some (.other n rest)) :
    CaptureInProgress await total left (slots ++ [n]) rest := by
  obtain ⟨hn, hpolls⟩ := countLoop_other (by decide) h
  obtain ⟨hawait, hslots, hleft, hused⟩ := c
  refine ⟨hawait, ?_, ?_, ?_⟩
  · simpa [or_imp, forall_and, hn] using hslots
  · simp only [List.length_append, List.length_singleton]
    omega
  · simp only [pollsOf_append, pollsOf_cons, pollsOf_nil]
    omega

/-- A loop that times out ends the capture within its bounds (R208, R210). -/
theorem CaptureInProgress.bounded_timeout {left : Nat} (c : CaptureInProgress await total (left + 1) slots levels)
    (h : countLoop level 0 levels = some (.ceiling n rest)) (p : BitVec 4) :
    CaptureResult.Bounded ⟨some p, k, await, slots ++ [n], total - rest.length⟩ := by
  obtain ⟨rfl, hpolls⟩ := countLoop_ceiling (by decide) h
  obtain ⟨hawait, hslots, hleft, hused⟩ := c
  have hbound := pollsOf_le hslots
  refine ⟨hawait.le, ?_, ?_, ?_, nofun⟩
  · simpa [or_imp, forall_and] using fun m hm => (hslots m hm).le
  · simp only [List.length_append, List.length_singleton]
    omega
  · show total - rest.length ≤ 83 * 32000
    omega

/-- With all its slots counted a capture has succeeded within its bounds (R210). -/
theorem CaptureInProgress.bounded_success (c : CaptureInProgress await total 0 slots rest) :
    CaptureResult.Bounded ⟨none, k, await, slots, total - rest.length⟩ := by
  obtain ⟨hawait, hslots, hleft, hused⟩ := c
  have hbound := pollsOf_le hslots
  refine ⟨hawait.le, fun m hm => (hslots m hm).le, hleft.le, ?_, fun _ => ⟨hleft, ?_⟩⟩
  · show total - rest.length ≤ 83 * 32000
    omega
  · show total - rest.length = await + 1 + pollsOf slots
    omega

/-- Whatever its pairs leave, a capture in progress ends within its bounds. -/
theorem capturePairs_bounded (c : CaptureInProgress await total (2 * fuel) slots levels)
    (h : capturePairs await total fuel k slots levels = some r) : r.Bounded := by
  induction fuel generalizing k slots levels with
  | zero => cases h; exact c.bounded_success
  | succ fuel ih =>
    obtain ⟨n, rest, hlow, rfl⟩ | ⟨low, mid, hlow, hrest⟩ := capturePairs_cases h
    · exact c.bounded_timeout hlow _
    have c' := c.slot hlow
    have assoc (n : Nat) : slots ++ [low, n] = slots ++ [low] ++ [n] := by simp
    obtain ⟨n, rest, hhigh, rfl⟩ | ⟨high, rest, hhigh, h⟩ := hrest
    · rw [assoc]
      exact c'.bounded_timeout hhigh _
    · rw [assoc] at h
      exact ih (c'.slot hhigh) h

/-- Every result of a capture is within the bounds of R210. -/
theorem capture_bounded (h : capture levels = some r) : r.Bounded := by
  obtain ⟨n, rest, hawait, rfl⟩ | ⟨n, rest, hawait, h⟩ := capture_cases h
  · obtain ⟨rfl, hpolls⟩ := countLoop_ceiling (by decide) hawait
    refine ⟨le_rfl, nofun, Nat.zero_le _, ?_, nofun⟩
    show levels.length - rest.length ≤ 83 * 32000
    omega
  · obtain ⟨hn, hpolls⟩ := countLoop_other (by decide) hawait
    have c : CaptureInProgress n levels.length (2 * 41) [] rest :=
      ⟨hn, nofun, rfl, by rw [pollsOf_nil]; omega⟩
    exact capturePairs_bounded c h

/-! ### Every capture ends -/

/-- A loop with enough levels ends, and by the other level it leaves all but the ceiling's. -/
theorem countLoop_ends (level : Bool) (levels : List Bool) (h : 32000 ≤ levels.length) :
    (∃ n rest, countLoop level 0 levels = some (.ceiling n rest)) ∨
    ∃ n rest, countLoop level 0 levels = some (.other n rest) ∧ levels.length ≤ rest.length + 32000 := by
  have hends : (countLoop level 0 levels).isSome = true := countLoop_isSome (by decide) (by omega)
  obtain ⟨e, he⟩ := Option.isSome_iff_exists.1 hends
  cases e with
  | ceiling n rest => exact .inl ⟨n, rest, he⟩
  | other n rest =>
    obtain ⟨hn, hpolls⟩ := countLoop_other (by decide) he
    exact .inr ⟨n, rest, he, by omega⟩

/-- Pairs with enough levels for all their slots answer a result. -/
theorem capturePairs_isSome (h : 64000 * fuel ≤ levels.length) :
    (capturePairs await total fuel k slots levels).isSome = true := by
  induction fuel generalizing k slots levels with
  | zero => rfl
  | succ fuel ih =>
    rw [capturePairs]
    obtain ⟨n, rest, hlow⟩ | ⟨low, mid, hlow, hmid⟩ := countLoop_ends false levels (by omega)
    · simp only [hlow, Option.isSome_some]
    obtain ⟨n, rest, hhigh⟩ | ⟨high, rest, hhigh, hrest⟩ := countLoop_ends true mid (by omega)
    · simp only [hlow, hhigh, Option.isSome_some]
    · simp only [hlow, hhigh]
      exact ih (by omega)

/-- Settles O41: the bounds of every result, and that 83 loops with levels enough all end. -/
theorem captureUsesBoundedPolls : Obligations.CaptureUsesBoundedPolls := by
  unfold Obligations.CaptureUsesBoundedPolls
  refine ⟨fun levels r h => ?_, fun levels hlen => ?_⟩
  · have hr := capture_bounded h
    exact ⟨hr.pollsBound.trans (by decide), hr.ofSuccess⟩
  · rw [capture]
    obtain ⟨n, rest, hawait⟩ | ⟨n, rest, hawait, hrest⟩ := countLoop_ends true levels (by omega)
    · simp only [hawait, Option.isSome_some]
    · simp only [hawait]
      exact capturePairs_isSome (by omega)

end Sys2Proof.Machine
end

section
/-! The stepwise capture is the pure function `capture` (R209): one polling loop of the machine runs as one `countLoop`,
the pairs as `capturePairs`, and the engine that a capture leaves is given by its result. -/

namespace Sys2Proof.Machine

open Sys2Proof

/-- The levels that the sensor's words give at the pin of the read. -/
def State.levels (s : State) : List Bool := s.datainIn.map (fun w => w.getLsbD s.eng.argPin.toNat)

/-- `t` follows on `s` by `n` steps of the sequencer, each of which has used one of the sensor's words. -/
structure Polled (n : Nat) (s t : State) : Prop where
  run : Host.Core.run Sys2Proof.core n s = .next t
  words : t.datainIn = s.datainIn.drop n
  used : s.levels.length = n + t.levels.length
  banks : t.banks = s.banks
  quiet : t.quiet
  pinBank : t.pinBank = s.pinBank

/-- The hidden POLL_GAP apart, the engines are equal (R44). -/
def Engine.AlikeButGap (e e' : Engine) : Prop := ∃ gap, e' = { e with pollGap := gap }

/-- The engine after TIMEOUT has been raised in `e` (R208, R275). -/
def Engine.timedOut (e : Engine) : Engine :=
  { e with crit := false, outcome := .timeout, failPhase := e.phase, busy := false, done := true, phase := 0 }

/-- The engine that the end of a polling loop leaves: `E n` has counted `n` polls, `X n` has left the loop after `n`. -/
def LoopEnd.engine (E X : Nat → Engine) : LoopEnd → Engine
  | .other n _ => X n
  | .ceiling n _ => (E n).timedOut

/-- The levels that the end of a polling loop leaves. -/
def LoopEnd.rest : LoopEnd → List Bool
  | .other _ rest => rest
  | .ceiling _ rest => rest

/-- The instruction polls on a pin of bank `b` as `countLoop` does: from `E c` it counts a poll at the level up to the
ceiling, and at the other level it goes to `X c`. -/
structure CountsPolls (i : Instr) (b : Fin 4) (level : Bool) (E X : Nat → Engine) : Prop where
  isPollPhase : i = .await ∨ i = .capLow ∨ i = .capHigh
  named (c : Nat) : decodePhase (E c).phase = .ok i
  poll {s t : State} {c : Nat} : c < 32000 → s.pinValid b → (E c).AlikeButGap s.eng → exec i s = .next t →
    Engine.AlikeButGap
      (if s.datainWord.getLsbD s.eng.argPin.toNat = level then
        (if 32000 ≤ c + 1 then (E (c + 1)).timedOut else E (c + 1))
      else X c) t.eng

variable {s t u : State} {e : Engine} {b : Fin 4} {i : Instr} {level : Bool} {await c n m total : Nat}
  {slots : List Nat} {levels : List Bool} {r : CaptureResult} {E X : Nat → Engine}

/-! ### Steps that poll -/

/-- A run is a run of the steps that follow its first ones. -/
theorem run_add (n : Nat) (h : Host.Core.run Sys2Proof.core m s = .next t) :
    Host.Core.run Sys2Proof.core (m + n) s = Host.Core.run Sys2Proof.core n t := by
  induction m generalizing s with
  | zero => cases h; rw [Nat.zero_add]
  | succ m ih =>
    rw [Nat.succ_add]
    simp only [Host.Core.run] at h ⊢
    cases hstep : Sys2Proof.core.step s with
    | next v => rw [hstep] at h; exact ih h
    | fault f => rw [hstep] at h; cases h
    | refused f => rw [hstep] at h; cases h

theorem polled_zero (hq : s.quiet) : Polled 0 s s := ⟨rfl, rfl, (Nat.zero_add _).symm, rfl, hq, rfl⟩

theorem Polled.trans (h : Polled m s t) (h' : Polled n t u) : Polled (m + n) s u where
  run := (run_add n h.run).trans h'.run
  words := by rw [h'.words, h.words, List.drop_drop]
  used := by rw [h.used, h'.used, Nat.add_assoc]
  banks := h'.banks.trans h.banks
  quiet := h'.quiet
  pinBank := h'.pinBank.trans h.pinBank

/-- A poll keeps the latches of the pin (R42). -/
theorem exec_poll_phase_latches (hi : i = .await ∨ i = .capLow ∨ i = .capHigh) (he : exec i s = .next t) :
    t.eng.argBank = s.eng.argBank ∧ t.eng.argPin = s.eng.argPin := by
  have hread : ¬∃ type bank pin, i = .read type bank pin := by rcases hi with rfl | rfl | rfl <;> nofun
  obtain ⟨-, -, -, -, -, hlatches, -⟩ := eachRegisterHasItsWriters i s t he
  have hkept := mt hlatches hread
  simp only [not_or, not_not] at hkept
  obtain ⟨hbank, hpin, -⟩ := hkept
  exact ⟨hbank, hpin⟩

/-- A poll on a quiet machine whose sensor has words left uses the first of them. -/
theorem polled_one (hq : s.quiet) (hp : s.pinBank = some b) (hi : i = .await ∨ i = .capLow ∨ i = .capHigh)
    (hd : decodePhase s.eng.phase = .ok i) {v : Bool} (hl : s.levels = v :: levels) :
    ∃ t, exec i s = .next t ∧ Polled 1 s t ∧ t.levels = levels ∧
      s.datainWord.getLsbD s.eng.argPin.toNat = v := by
  obtain ⟨t, he, hbanks, -, hdatain, -⟩ := exec_poll_phase_frame hi hp
  obtain ⟨hbank, hpin⟩ := exec_poll_phase_latches hi he
  obtain ⟨w, ws, hw, rfl, rfl⟩ := List.map_eq_cons_iff.1 hl
  have hlevels : t.levels = ws.map (fun w => w.getLsbD s.eng.argPin.toNat) := by
    rw [State.levels, hdatain, hpin, hw, List.tail_cons]
  refine ⟨t, he, ?_, hlevels, by rw [State.datainWord, hw, List.headD_cons]⟩
  have hstep : step s = .next t := (stepRunsThePhase.1 s i hq hd).trans he
  refine ⟨run_succ_of_step 0 hstep, ?_, ?_, hbanks, quiet_of_exec hq he, pinBank_congr hbank hpin⟩
  · rw [hdatain, List.drop_one]
  · rw [hl, hlevels, List.length_cons, Nat.add_comm]

/-! ### A polling loop of the machine is `countLoop` -/

/-- As long as it polls at the level the loop counts, and it ends where `countLoop` does (R200, R209). -/
theorem CountsPolls.run (h : CountsPolls i b level E X) (hc : c < 32000) (hq : s.quiet) (hp : s.pinBank = some b)
    (heng : (E c).AlikeButGap s.eng) {out : LoopEnd} (hout : countLoop level c s.levels = some out) :
    ∃ n t, Polled n s t ∧ t.levels = out.rest ∧ (out.engine E X).AlikeButGap t.eng := by
  generalize hl : s.levels = levels at hout
  induction levels generalizing c s with
  | nil => cases hout
  | cons v vs ih =>
    have hd : decodePhase s.eng.phase = .ok i := by
      obtain ⟨gap, hgap⟩ := heng
      rw [hgap]
      exact h.named c
    obtain ⟨t, he, hfirst, hlevels, hv⟩ := polled_one hq hp h.isPollPhase hd hl
    have hnext := h.poll hc ((pinBank_eq_some_iff s b).1 hp) heng he
    rw [hv] at hnext
    rw [countLoop] at hout
    split_ifs at hout hnext with hlevel hceil
    · cases hout
      exact ⟨1, t, hfirst, hlevels, hnext⟩
    · have hp' := hfirst.pinBank.trans hp
      obtain ⟨n, u, hrest, hu⟩ := ih (not_le.1 hceil) hfirst.quiet hp' hnext hlevels hout
      exact ⟨1 + n, u, hfirst.trans hrest, hu⟩
    · cases hout
      exact ⟨1, t, hfirst, hlevels, hnext⟩

/-! ### The engine of a capture in progress -/

/-- The pulse file that holds the slots counted so far, and zero beyond them. -/
def pulseFile (slots : List Nat) : Vector (BitVec 16) 82 :=
  Vector.ofFn fun k => BitVec.ofNat 16 (slots.getD k.val 0)

/-- The read `e` when its capture has counted these slots and is at this position. -/
def Engine.capturing (e : Engine) (await : Nat) (slots : List Nat) (pair : Fin 41) (crit : Bool) (phase : BitVec 4) :
    Engine :=
  { e with awaitCount := BitVec.ofNat 16 await, pulse := pulseFile slots, pair := pair, crit := crit, phase := phase }

/-- Before pair `k`: in its CAP_LOW, or when no pair is left in THRESH with PAIR still 40 (R206). -/
def Engine.beforePair (e : Engine) (await : Nat) (slots : List Nat) (k : Nat) : Engine :=
  if h : k < 41 then e.capturing await slots ⟨k, h⟩ true Phase.capLow
  else e.capturing await slots 40 false Phase.thresh

theorem pulseFile_nil : pulseFile [] = Vector.replicate 82 0 := by
  ext k hk
  simp [pulseFile]

theorem pulseFile_getElem {k : Nat} (hk : k < 82) : (pulseFile slots)[k] = BitVec.ofNat 16 (slots.getD k 0) := by
  simp [pulseFile]

/-- One more slot is the next one written. -/
theorem pulseFile_append_singleton (h : slots.length < 82) (n : Nat) :
    pulseFile (slots ++ [n]) = (pulseFile slots).set slots.length (BitVec.ofNat 16 n) := by
  ext1 k hk
  rw [pulseFile_getElem hk, Vector.getElem_set, pulseFile_getElem hk]
  obtain hlt | rfl | hgt := lt_trichotomy k slots.length
  · rw [if_neg hlt.ne', List.getD_append _ _ _ _ hlt]
  · rw [if_pos rfl]
    simp
  · have hlen : (slots ++ [n]).length ≤ k := by simpa using hgt
    rw [if_neg hgt.ne, List.getD_eq_default _ _ hlen, List.getD_eq_default _ _ hgt.le]

/-- A slot not counted yet holds zero. -/
theorem pulseFile_append_zero (h : slots.length < 82) : pulseFile (slots ++ [0]) = pulseFile slots := by
  have hzero : BitVec.ofNat 16 0 = (pulseFile slots)[slots.length] := by
    rw [pulseFile_getElem h, List.getD_eq_default _ _ le_rfl]
  rw [pulseFile_append_singleton h, hzero, Vector.set_getElem_self]

theorem capturing_append_zero (h : slots.length < 82) (pair : Fin 41) (crit : Bool) (phase : BitVec 4) :
    e.capturing await (slots ++ [0]) pair crit phase = e.capturing await slots pair crit phase := by
  rw [Engine.capturing, pulseFile_append_zero h]
  rfl

/-- A read that enters AWAIT has counted nothing (R151). -/
theorem capturing_nil (hphase : e.phase = Phase.await) (hcount : e.awaitCount = 0)
    (hpulse : e.pulse = Vector.replicate 82 0) (hpair : e.pair = 0) :
    e.capturing 0 [] 0 e.crit Phase.await = e := by
  cases e
  simp_all [Engine.capturing, pulseFile_nil]

/-- A counter below the ceiling counts without wrapping (log 22). -/
theorem counter_succ (hc : c < 32000) :
    BitVec.ofNat 16 c + 1 = BitVec.ofNat 16 (c + 1) ∧ (BitVec.ofNat 16 (c + 1)).toNat = c + 1 := by
  refine ⟨(BitVec.ofNat_add c 1).symm, ?_⟩
  rw [BitVec.toNat_ofNat]
  exact Nat.mod_eq_of_lt (by omega)

/-! ### The three polling loops -/

/-- AWAIT of a read that has counted no pulse counts its high polls (R201). -/
theorem countsPolls_await (crit : Bool) :
    CountsPolls .await b true (fun c => e.capturing c [] 0 crit Phase.await) (fun n => e.beforePair n [] 0) where
  isPollPhase := .inl rfl
  named c := rfl
  poll := by
    rintro s t c hc hvalid ⟨gap, hgap⟩ hexec
    obtain ⟨t', hexec', -, -, -, -, -, -, heng⟩ := awaitCountsHighPolls s b hvalid
    cases hexec'.symm.trans hexec
    refine ⟨t.eng.pollGap, heng.trans ?_⟩
    generalize t.eng.pollGap = gap'
    obtain ⟨hsucc, hcount⟩ := counter_succ hc
    simp only [hgap, Engine.capturing, hsucc, hcount, Engine.timedOut]
    split_ifs <;> rfl

/-- CAP_LOW of pair `k` counts its low polls in slot `2k` (R204). -/
theorem countsPolls_capLow (k : Fin 41) (hslots : slots.length = 2 * k.val) :
    CountsPolls .capLow b false (fun c => e.capturing await (slots ++ [c]) k true Phase.capLow)
      (fun n => e.capturing await (slots ++ [n]) k true Phase.capHigh) where
  isPollPhase := .inr (.inl rfl)
  named c := rfl
  poll := by
    rintro s t c hc hvalid ⟨gap, hgap⟩ hexec
    obtain ⟨t', hexec', -, -, -, -, -, -, heng⟩ := capLowCountsLowPolls s b hvalid
    cases hexec'.symm.trans hexec
    refine ⟨t.eng.pollGap, heng.trans ?_⟩
    generalize t.eng.pollGap = gap'
    obtain ⟨hsucc, hcount⟩ := counter_succ hc
    have hlen : slots.length < 82 := by omega
    simp only [hgap, Engine.capturing, pulseFile_append_singleton hlen, hslots, Vector.getElem_set_self, Vector.set_set,
      hsucc, hcount, Engine.timedOut]
    split_ifs <;> rfl

/-- CAP_HIGH of pair `k` counts its high polls in slot `2k + 1`, and leaves the pair with that slot last (R206). -/
theorem countsPolls_capHigh (k : Fin 41) (hslots : slots.length = 2 * k.val + 1) :
    CountsPolls .capHigh b true (fun c => e.capturing await (slots ++ [c]) k true Phase.capHigh)
      (fun n => e.beforePair await (slots ++ [n]) (k.val + 1)) where
  isPollPhase := .inr (.inr rfl)
  named c := rfl
  poll := by
    rintro s t c hc hvalid ⟨gap, hgap⟩ hexec
    obtain ⟨t', hexec', -, -, -, -, -, -, heng⟩ := capHighCountsHighPolls s b hvalid
    cases hexec'.symm.trans hexec
    refine ⟨t.eng.pollGap, heng.trans ?_⟩
    generalize t.eng.pollGap = gap'
    obtain ⟨hsucc, hcount⟩ := counter_succ hc
    have hlen : slots.length < 82 := by omega
    simp only [hgap, Engine.capturing, Engine.beforePair, pulseFile_append_singleton hlen, hslots,
      Vector.getElem_set_self, Vector.set_set, hsucc, hcount, Engine.timedOut]
    by_cases hk : k.val < 40
    · rw [dif_pos hk, dif_pos (Nat.succ_lt_succ hk)]
      split_ifs <;> rfl
    · rw [dif_neg hk, dif_neg (by omega)]
      obtain rfl : k = 40 := by omega
      split_ifs <;> rfl

/-! ### The engine that a capture leaves -/

/-- The engine that a capture of the read `e` leaves by its result: in THRESH, or timed out where the result says. -/
def CaptureResult.engine (e : Engine) (pair : Fin 41) (r : CaptureResult) : Engine :=
  match r.timeout with
  | none => e.capturing r.await r.slots pair false Phase.thresh
  | some p => (e.capturing r.await r.slots pair true p).timedOut

/-- From `s`, whose capture started from `e` with `total` levels, the machine reaches what the result says when the
result's polls of these levels are used. -/
def Leaves (e : Engine) (total : Nat) (s : State) (r : CaptureResult) : Prop :=
  ∃ (n : Nat) (t : State) (pair : Fin 41), Polled n s t ∧ r.polls = total - t.levels.length ∧ r.pair = pair.val ∧
    (r.engine e pair).AlikeButGap t.eng

theorem Leaves.of_polled (h : Polled m s t) (ht : Leaves e total t r) : Leaves e total s r := by
  obtain ⟨n, u, pair, hpolled, hu⟩ := ht
  exact ⟨m + n, u, pair, h.trans hpolled, hu⟩

/-- The pairs of the machine are `capturePairs` (R204, R206, R209). -/
theorem capturePairs_run {fuel k : Nat} (hk : k + fuel = 41) (hslots : slots.length = 2 * k) (hq : s.quiet)
    (hp : s.pinBank = some b) (heng : (e.beforePair await slots k).AlikeButGap s.eng)
    (h : capturePairs await total fuel k slots s.levels = some r) : Leaves e total s r := by
  induction fuel generalizing k slots s with
  | zero =>
    obtain rfl : k = 41 := hk
    cases h
    exact ⟨0, s, 40, polled_zero hq, rfl, rfl, heng⟩
  | succ fuel ih =>
    have hlt : k < 41 := by omega
    rw [Engine.beforePair, dif_pos hlt, ← capturing_append_zero (by omega)] at heng
    have low := countsPolls_capLow (e := e) (b := b) (await := await) ⟨k, hlt⟩ hslots
    obtain ⟨n, rest, hlow, rfl⟩ | ⟨n, mid, hlow, hmid⟩ := capturePairs_cases h
    · obtain ⟨m, t, hpolled, hrest, ht⟩ := low.run (by decide) hq hp heng hlow
      exact ⟨m, t, ⟨k, hlt⟩, hpolled, by rw [hrest]; rfl, rfl, ht⟩
    obtain ⟨m, t, hpolled, rfl, ht⟩ := low.run (by decide) hq hp heng hlow
    refine .of_polled hpolled ?_
    have hp' := hpolled.pinBank.trans hp
    have hslots' : (slots ++ [n]).length = 2 * k + 1 := by simp [hslots]
    have high := countsPolls_capHigh (e := e) (b := b) (await := await) ⟨k, hlt⟩ hslots'
    have hpair (l : Nat) : slots ++ [n, l] = slots ++ [n] ++ [l] := by simp
    simp only [hpair] at hmid
    rw [LoopEnd.engine, ← capturing_append_zero (by omega)] at ht
    obtain ⟨l, rest, hhigh, rfl⟩ | ⟨l, rest, hhigh, hnext⟩ := hmid
    · obtain ⟨m', u, hpolled', hrest, hu⟩ := high.run (by decide) hpolled.quiet hp' ht hhigh
      exact ⟨m', u, ⟨k, hlt⟩, hpolled', by rw [hrest]; rfl, rfl, hu⟩
    · obtain ⟨m', u, hpolled', rfl, hu⟩ := high.run (by decide) hpolled.quiet hp' ht hhigh
      have hk' : k + 1 + fuel = 41 := by omega
      refine .of_polled hpolled' (ih hk' ?_ hpolled'.quiet ?_ hu hnext)
      · simp [hslots, Nat.mul_succ]
      · exact hpolled'.pinBank.trans hp'

/-- The capture of the machine is `capture` (R201, R209). -/
theorem capture_run (hq : s.quiet) (hp : s.pinBank = some b) (hphase : s.eng.phase = Phase.await)
    (hcount : s.eng.awaitCount = 0) (hpulse : s.eng.pulse = Vector.replicate 82 0) (hpair : s.eng.pair = 0)
    (h : capture s.levels = some r) : Leaves s.eng s.levels.length s r := by
  have loop := countsPolls_await (e := s.eng) (b := b) s.eng.crit
  have heng : (s.eng.capturing 0 [] 0 s.eng.crit Phase.await).AlikeButGap s.eng :=
    ⟨s.eng.pollGap, by rw [capturing_nil hphase hcount hpulse hpair]⟩
  obtain ⟨n, rest, hawait, rfl⟩ | ⟨n, rest, hawait, hpairs⟩ := capture_cases h
  · obtain ⟨m, t, hpolled, hrest, ht⟩ := loop.run (by decide) hq hp heng hawait
    exact ⟨m, t, 0, hpolled, by rw [hrest]; rfl, rfl, ht⟩
  · obtain ⟨m, t, hpolled, rfl, ht⟩ := loop.run (by decide) hq hp heng hawait
    exact .of_polled hpolled (capturePairs_run rfl rfl hpolled.quiet (hpolled.pinBank.trans hp) ht hpairs)

/-- The counters of the engine that a capture leaves, with the window closed whichever way it ended. -/
theorem CaptureResult.engine_counters (r : CaptureResult) (e : Engine) (pair : Fin 41) :
    (r.engine e pair).awaitCount = BitVec.ofNat 16 r.await ∧ (r.engine e pair).pulse = pulseFile r.slots ∧
      (r.engine e pair).pair = pair ∧ (r.engine e pair).crit = false := by
  unfold CaptureResult.engine
  cases r.timeout <;> exact ⟨rfl, rfl, rfl, rfl⟩

/-- Slots within the ceiling are read back from the pulse file, and zero beyond them. -/
theorem slot_of_pulseFile (hpulse : e.pulse = pulseFile slots) (hbound : ∀ n ∈ slots, n ≤ 32000)
    (hfit : slots.length ≤ 82) (k : Nat) : e.slot k = slots.getD k 0 := by
  have hcount : slots.getD k 0 ≤ 32000 := by
    obtain hk | hk := lt_or_ge k slots.length
    · rw [List.getD_eq_getElem _ _ hk]
      exact hbound _ (List.getElem_mem hk)
    · rw [List.getD_eq_default _ _ hk]
      exact Nat.zero_le _
  rw [Engine.slot]
  split_ifs with hk
  · simp only [hpulse]
    rw [pulseFile_getElem hk, BitVec.toNat_ofNat]
    exact Nat.mod_eq_of_lt (by omega)
  · exact (List.getD_eq_default _ _ (by omega)).symm

/-- Settles O40: the engine that `capture_run` reaches, read field by field. -/
theorem captureIsThePureFunction : Obligations.CaptureIsThePureFunction := by
  unfold Obligations.CaptureIsThePureFunction
  intro s b r hq hvalid hphase hcount hpulse hpair hcapture
  have hbounded := capture_bounded hcapture
  obtain ⟨n, t, pair, hpolled, hpolls, hpairVal, gap, hgap⟩ :=
    capture_run hq ((pinBank_eq_some_iff s b).2 hvalid) hphase hcount hpulse hpair hcapture
  obtain ⟨hawait, hslots, hpairEq, hcrit⟩ := r.engine_counters s.eng pair
  have hused : r.polls = n := by
    have := hpolled.used
    omega
  rw [hused]
  refine ⟨t, hpolled.run, ?_, ?_, ?_, hpolled.words, hpolled.banks, ?_, ?_⟩
  · have hbelow := hbounded.awaitBound
    simp only [hgap, hawait, BitVec.toNat_ofNat]
    exact Nat.mod_eq_of_lt (by omega)
  · exact slot_of_pulseFile (by rw [hgap, hslots]) hbounded.slotsBound hbounded.slotsFit
  · rw [hgap, hpairEq, hpairVal]
  · rw [hgap, hcrit]
  · rw [CaptureResult.engine] at hgap
    cases hout : r.timeout with
    | none =>
      rw [hout] at hgap
      simp only [hgap, Engine.capturing, and_self]
    | some p =>
      rw [hout] at hgap
      simp only [hgap, Engine.timedOut, Engine.capturing, and_self]

end Sys2Proof.Machine
end

section
/-! The counters of the data pairs as slots, the threshold as a mean of them (R231, R232), and the packer bit by bit
(R233 to R235). -/

namespace Sys2Proof.Machine

open Sys2Proof

variable {e : Engine} {P : Nat → Nat} {c : Nat}

/-! ### The threshold is a mean -/

/-- The high counter of data pair `q + 1` is slot `2 (q + 1) + 1` (R32). -/
theorem slot_dataHigh (e : Engine) (q : Fin 40) : e.slot (2 * (q.val + 1) + 1) = (e.dataHigh q).toNat := dif_pos (by omega)

theorem slot_lt (e : Engine) (i : Nat) : e.slot i < 2 ^ 16 := by
  unfold Engine.slot
  split_ifs
  · exact BitVec.isLt _
  · exact Nat.two_pow_pos 16

/-- The sum over the forty data counters is the sum over their slots. -/
theorem highSum_eq (e : Engine) : e.highSum = ∑ p ∈ Finset.Icc 1 40, e.slot (2 * p + 1) := by
  calc e.highSum = ∑ q : Fin 40, (e.dataHigh q).toNat := (Fin.sum_univ_def _).symm
    _ = ∑ q : Fin 40, e.slot (2 * (q.val + 1) + 1) := by simp only [slot_dataHigh]
    _ = ∑ k ∈ Finset.range 40, e.slot (2 * (k + 1) + 1) := Fin.sum_univ_eq_sum_range (fun k => e.slot (2 * (k + 1) + 1)) 40
    _ = ∑ p ∈ Finset.Icc 1 40, e.slot (2 * p + 1) := by
        rw [Finset.range_eq_Ico, Finset.sum_Ico_add' (fun p => e.slot (2 * p + 1))]
        rfl

/-- A mean lies at or below any bound of the forty counters. -/
theorem thresholdOf_le (h : ∀ p ∈ Finset.Icc 1 40, P (2 * p + 1) ≤ c) : thresholdOf P ≤ c := by
  have hsum := Finset.sum_le_card_nsmul (Finset.Icc 1 40) (fun p => P (2 * p + 1)) c h
  rw [Nat.card_Icc, smul_eq_mul] at hsum
  unfold thresholdOf
  omega

/-- A mean lies at or above any bound of the forty counters. -/
theorem le_thresholdOf (h : ∀ p ∈ Finset.Icc 1 40, c ≤ P (2 * p + 1)) : c ≤ thresholdOf P := by
  have hsum := Finset.card_nsmul_le_sum (Finset.Icc 1 40) (fun p => P (2 * p + 1)) c h
  rw [Nat.card_Icc, smul_eq_mul] at hsum
  unfold thresholdOf
  omega

/-- If every counter were below the mean, the mean would be below itself (R232 (a)). -/
theorem exists_thresholdOf_le (P : Nat → Nat) : ∃ p ∈ Finset.Icc 1 40, thresholdOf P ≤ P (2 * p + 1) := by
  by_contra! hbelow
  have hone := hbelow 1 (by simp)
  have := thresholdOf_le fun p hp => Nat.le_sub_one_of_lt (hbelow p hp)
  omega

/-- Some counter is at most the mean. -/
theorem exists_le_thresholdOf (P : Nat → Nat) : ∃ p ∈ Finset.Icc 1 40, P (2 * p + 1) ≤ thresholdOf P := by
  by_contra! habove
  have := le_thresholdOf habove
  omega

/-- The mean of a two-level capture: every pair has `z`, and those of `S` have `o - z` more (R248). -/
theorem thresholdOf_two_level {S : Finset Nat} {z o : Nat} (hS : S ⊆ Finset.Icc 1 40) (hzo : z < o)
    (h : ∀ p ∈ Finset.Icc 1 40, P (2 * p + 1) = if p ∈ S then o else z) :
    thresholdOf P = z + S.card * (o - z) / 40 := by
  have hsum : ∑ p ∈ Finset.Icc 1 40, P (2 * p + 1) = S.card * (o - z) + 40 * z := by
    calc ∑ p ∈ Finset.Icc 1 40, P (2 * p + 1) = ∑ p ∈ Finset.Icc 1 40, ((if p ∈ S then o - z else 0) + z) := by
          refine Finset.sum_congr rfl fun p hp => ?_
          rw [h p hp]
          split_ifs <;> omega
      _ = S.card * (o - z) + 40 * z := by
          rw [Finset.sum_add_distrib, Finset.sum_ite_mem, Finset.inter_eq_right.2 hS]
          simp
  rw [thresholdOf, hsum]
  omega

/-- The threshold register holds the mean exactly: it fits 32 bits (R231). -/
theorem toNat_meanHigh (e : Engine) : e.meanHigh.toNat = thresholdOf e.slot := by
  have hle : thresholdOf e.slot ≤ 2 ^ 16 := thresholdOf_le fun p _ => (slot_lt e _).le
  rw [Engine.meanHigh, highSum_eq, BitVec.toNat_ofNat]
  exact Nat.mod_eq_of_lt (hle.trans_lt (by decide))

/-! ### The packer -/

/-- The comparator compares the numbers (R233). -/
theorem dataBit_eq (e : Engine) (q : Fin 40) : e.dataBit q = decide (e.threshold.toNat ≤ e.slot (2 * (q.val + 1) + 1)) := by
  rw [slot_dataHigh, Engine.dataBit, decide_eq_decide, BitVec.le_def, BitVec.toNat_setWidth_of_le (by decide)]

/-- A bit shifted in is the lowest, and the others move up by one (R234). -/
theorem getLsbD_shiftIn (r : Byte) (b : Bool) {n : Nat} (hn : n < 8) :
    (shiftIn r b).getLsbD n = if n = 0 then b else r.getLsbD (n - 1) := by
  obtain rfl | h0 := Nat.eq_zero_or_pos n
  · simp [shiftIn]
  · have hb : n ≠ 0 := by omega
    simp only [shiftIn, BitVec.getLsbD_or, BitVec.getLsbD_shiftLeft, BitVec.getLsbD_setWidth, BitVec.getLsbD_ofBool]
    simp [hb, hn]

/-- Of the bits shifted in, the last one is the lowest. -/
theorem getLsbD_foldl_shiftIn (bits : List Bool) {n : Nat} (hn : n < 8) :
    (bits.foldl shiftIn 0).getLsbD n = bits.reverse.getD n false := by
  induction bits using List.reverseRecOn generalizing n with
  | nil => simp
  | append_singleton bits b ih =>
    rw [List.foldl_append, List.foldl_cons, List.foldl_nil, getLsbD_shiftIn _ _ hn, List.reverse_append]
    cases n with
    | zero => rfl
    | succ n => exact ih (by omega)

/-- Bit `7 - m` of byte `j` is the comparison of data pair `8j + 1 + m` (R235). -/
theorem getLsbD_packedByte (e : Engine) (j : Fin 5) (m : Fin 8) :
    (e.packedByte j).getLsbD (7 - m.val) = decide (e.threshold.toNat ≤ e.slot (2 * (8 * j.val + 1 + m.val) + 1)) := by
  have hm : 8 - 1 - (7 - m.val) = m.val := by omega
  rw [Engine.packedByte, ← List.foldl_map, getLsbD_foldl_shiftIn _ (by omega), List.getD_eq_getElem _ _ (by simp; omega),
    List.getElem_reverse]
  simp only [List.length_map, List.length_finRange, List.getElem_map, List.getElem_finRange, hm, dataBit_eq]
  rw [Nat.add_right_comm]
  rfl

/-- The low bits of a number, each with its weight. -/
theorem mod_two_pow_eq_sum (x n : Nat) :
    x % 2 ^ n = ∑ i ∈ Finset.range n, (if x.testBit i then 1 else 0) * 2 ^ i := by
  induction n with
  | zero => simp [Nat.mod_one]
  | succ n ih =>
    rw [Finset.sum_range_succ, ← ih, Nat.mod_pow_succ, Nat.testBit_eq_decide_div_mod_eq]
    obtain hbit | hbit := Nat.mod_two_eq_zero_or_one (x / 2 ^ n) <;> simp [hbit]

/-- A byte is the sum of its bits, from the highest on. -/
theorem toNat_eq_sum_bits (x : Byte) :
    x.toNat = ∑ m ∈ Finset.range 8, (if x.getLsbD (7 - m) then 1 else 0) * 2 ^ (7 - m) :=
  calc x.toNat = x.toNat % 2 ^ 8 := (Nat.mod_eq_of_lt x.isLt).symm
    _ = ∑ i ∈ Finset.range 8, (if x.getLsbD i then 1 else 0) * 2 ^ i := mod_two_pow_eq_sum x.toNat 8
    _ = _ := (Finset.sum_flip fun i => (if x.getLsbD i then 1 else 0) * 2 ^ i).symm

/-- A byte whose bits are the comparisons of the counters from pair `8 j + 1` on, as a number (R233, R235). -/
theorem toNat_eq_of_bits {x : Byte} {j : Nat}
    (h : ∀ m : Fin 8, x.getLsbD (7 - m.val) = decide (c ≤ P (2 * (8 * j + 1 + m.val) + 1))) :
    x.toNat = ∑ m ∈ Finset.range 8, (if c ≤ P (16 * j + 3 + 2 * m) then 1 else 0) * 2 ^ (7 - m) := by
  rw [toNat_eq_sum_bits]
  refine Finset.sum_congr rfl fun m hm => ?_
  have hslot : 2 * (8 * j + 1 + m) + 1 = 16 * j + 3 + 2 * m := by omega
  simp only [h ⟨m, Finset.mem_range.1 hm⟩, hslot, decide_eq_true_eq]

end Sys2Proof.Machine
end

section
/-! THRESH, DECODE, CHECK and SCALE one by one (R231 to R245), and what none of them touches (R230). -/

namespace Sys2Proof.Machine

open Sys2Proof

variable (s : State)

/-- THRESH stores the mean and goes on (R231). -/
theorem exec_thresh :
    exec .thresh s = .next { s with eng := { s.eng with threshold := s.eng.meanHigh, phase := Phase.decode } } := rfl

/-- DECODE stores the packed bytes and goes on (R234). -/
theorem exec_decode :
    exec .decode s = .next { s with eng := { s.eng with raw := s.eng.packedBytes, phase := Phase.check } } := rfl

/-- Settles O29: the model's sum of data counters is the sum of their slots. -/
theorem threshIsTheIntegerMean : Obligations.ThreshIsTheIntegerMean := by
  unfold Obligations.ThreshIsTheIntegerMean
  intro s
  rw [exec_thresh, Engine.meanHigh, highSum_eq]

/-- Settles O30: the packer bit by bit, and a byte as the sum of its bits. -/
theorem decodePacksMostSignificantFirst : Obligations.DecodePacksMostSignificantFirst := by
  unfold Obligations.DecodePacksMostSignificantFirst
  intro s
  have hbit (j : Fin 5) (m : Fin 8) : s.eng.packedBytes[j].getLsbD (7 - m.val) =
      decide (s.eng.threshold.toNat ≤ s.eng.slot (2 * (8 * j.val + 1 + m.val) + 1)) := by
    have hbyte : s.eng.packedBytes[j] = s.eng.packedByte j := Vector.getElem_ofFn _
    rw [hbyte, getLsbD_packedByte]
  exact ⟨_, exec_decode s, rfl, hbit, fun j => toNat_eq_of_bits (hbit j)⟩

/-- The checksum byte matches when the sums match as numbers mod 256 (R237). -/
theorem eq_checksum_iff (e : Engine) : e.raw[4] = e.checksum ↔
    e.raw[4].toNat = (e.raw[0].toNat + e.raw[1].toNat + e.raw[2].toNat + e.raw[3].toNat) % 256 := by
  rw [BitVec.toNat_eq]
  simp only [Engine.checksum, BitVec.toNat_add]
  omega

/-- Settles O31: the comparison of the bytes is the comparison of the numbers. -/
theorem checkComparesTheByteSum : Obligations.CheckComparesTheByteSum := by
  unfold Obligations.CheckComparesTheByteSum
  intro s
  split_ifs with hmatch
  · exact exec_check_match ((eq_checksum_iff s.eng).2 hmatch)
  · exact exec_check_mismatch (mt (eq_checksum_iff s.eng).1 hmatch)

/-- Settles O32: the two bytes fit their fields. -/
theorem scaleVariantA : Obligations.ScaleVariantA := by
  unfold Obligations.ScaleVariantA
  intro s htype
  exact ⟨_, exec_scale_a htype, rfl, BitVec.toNat_setWidth_of_le (by decide), BitVec.toNat_setWidth_of_le (by decide)⟩

/-- Bit 7 of a byte is its sign (R242). -/
theorem getLsbD_seven (x : Byte) : x.getLsbD 7 = decide (128 ≤ x.toNat) := x.msb_eq_decide

/-- The magnitude of a byte with a sign bit (R242). -/
theorem toNat_and_0x7F (x : Byte) : (x &&& 0x7F).toNat = x.toNat % 128 :=
  (BitVec.toNat_and x 0x7F).trans (Nat.and_two_pow_sub_one_eq_mod x.toNat 7)

/-- Two bytes that fit a word make the number they spell (R242). -/
theorem toNat_twoBytes {w : Nat} (hi lo : Byte) (h : 256 * hi.toNat + 256 ≤ 2 ^ w) :
    (hi.setWidth w * 256#w + lo.setWidth w).toNat = 256 * hi.toNat + lo.toNat := by
  have hlo := lo.isLt
  simp only [BitVec.toNat_add, BitVec.toNat_mul, BitVec.toNat_setWidth, BitVec.toNat_ofNat, ← Nat.mul_mod, ← Nat.add_mod]
  rw [Nat.mod_eq_of_lt (by omega), Nat.mul_comm]

/-- Settles O33: neither 16-bit humidity nor 15-bit magnitude wraps. -/
theorem scaleVariantB : Obligations.ScaleVariantB := by
  unfold Obligations.ScaleVariantB
  intro s htype
  refine ⟨_, exec_scale_b htype, rfl, ?_, ?_, getLsbD_seven _⟩
  · have hhi := s.eng.raw[0].isLt
    exact toNat_twoBytes s.eng.raw[0] s.eng.raw[1] (by omega)
  · rw [← toNat_and_0x7F]
    have hhi := toNat_and_0x7F s.eng.raw[2]
    exact toNat_twoBytes (s.eng.raw[2] &&& 0x7F) s.eng.raw[3] (by omega)

/-- Settles O34: the values of the scaled fields over their denominator. -/
theorem readingIsExact : Obligations.ReadingIsExact := by
  unfold Obligations.ReadingIsExact
  intro s
  cases htype : s.eng.argType with
  | a =>
    obtain ⟨t, hexec, ht, hhum, hmag⟩ := scaleVariantA s htype
    have hargs : t.eng.argType = .a := by rw [ht]; exact htype
    have hneg : t.eng.tempNeg = false := by rw [ht]
    refine ⟨t, hexec, ?_, ?_⟩
    · rw [Engine.humidity, hargs, hhum, Variant.denominator, div_one]
    · simp [Engine.temperature, hargs, hneg, hmag, Variant.denominator]
  | b =>
    obtain ⟨t, hexec, ht, hhum, hmag, hneg⟩ := scaleVariantB s htype
    have hargs : t.eng.argType = .b := by rw [ht]; exact htype
    refine ⟨t, hexec, ?_, ?_⟩
    · simp only [Engine.humidity, hargs, hhum, Variant.denominator]
      push_cast
      rfl
    · simp only [Engine.temperature, hargs, hneg, hmag, Variant.denominator, decide_eq_true_eq]
      push_cast
      rfl

/-- Settles O35: no decode phase writes anything of those but its results and the completion fields. -/
theorem decodePhasesFrame : Obligations.DecodePhasesFrame := by
  unfold Obligations.DecodePhasesFrame
  intro i s t hi hexec
  obtain rfl | rfl | rfl | rfl := hi
  · cases (exec_thresh s).symm.trans hexec
    simp
  · cases (exec_decode s).symm.trans hexec
    simp
  · obtain ⟨-, rfl⟩ | ⟨-, rfl⟩ := exec_check_cases hexec
    · simp [State.goto]
    · simp [State.complete]
  · obtain rfl | rfl := exec_scale_cases hexec
    · simp [State.complete, State.scaleA]
    · simp [State.complete, State.scaleB]

/-- Settles O36: a mean lies between the least and the greatest of its terms. -/
theorem thresholdLiesBetweenTheCounters : Obligations.ThresholdLiesBetweenTheCounters := by
  unfold Obligations.ThresholdLiesBetweenTheCounters
  intro s
  refine ⟨_, exec_thresh s, ?_⟩
  simp only [toNat_meanHigh]
  exact ⟨exists_thresholdOf_le _, exists_le_thresholdOf _, thresholdOf_le,
    fun v hv => le_antisymm (thresholdOf_le fun p hp => (hv p hp).le) (le_thresholdOf fun p hp => (hv p hp).ge)⟩

end Sys2Proof.Machine
end

section
/-! Runs of the decode phases on a quiet machine (R236, R247, R248): THRESH and DECODE together give the bytes of
`decodeAll`, which CHECK and SCALE then judge and scale. -/

namespace Sys2Proof.Machine

open Sys2Proof

variable {s t u : State} {e : Engine} {P : Nat → Nat} {type : Variant}

/-! ### The bytes of the captured counters -/

/-- The bytes hold, most significant bit first, the comparisons of the counters with their own mean (R231, R235). -/
def Engine.BytesOf (e : Engine) (P : Nat → Nat) : Prop :=
  ∀ (j : Fin 5) (m : Fin 8), e.raw[j].getLsbD (7 - m.val) = decide (thresholdOf P ≤ P (2 * (8 * j.val + 1 + m.val) + 1))

/-- The data pair whose bit is bit `7 - m` of byte `j`. -/
theorem dataPair_mem (j : Fin 5) (m : Fin 8) : 8 * j.val + 1 + m.val ∈ Finset.Icc 1 40 := by
  rw [Finset.mem_Icc]
  omega

/-- Every data pair has its bit (R235). -/
theorem dataPair_eq {p : Nat} (hp : p ∈ Finset.Icc 1 40) : ∃ (j : Fin 5) (m : Fin 8), p = 8 * j.val + 1 + m.val := by
  rw [Finset.mem_Icc] at hp
  exact ⟨⟨(p - 1) / 8, by omega⟩, ⟨(p - 1) % 8, by omega⟩, by simp only; omega⟩

/-- The bytes are those of `decodeAll` (R235, R247). -/
theorem Engine.BytesOf.toNat_eq (h : e.BytesOf P) (j : Nat) (hj : j < 5) : e.raw[j].toNat = byteOf P j :=
  toNat_eq_of_bits (h ⟨j, hj⟩)

/-- Some counter reaches the mean, so some byte is not zero (R232, R236). -/
theorem Engine.BytesOf.exists_ne_zero (h : e.BytesOf P) : ∃ j : Fin 5, e.raw[j] ≠ 0 := by
  obtain ⟨p, hp, hle⟩ := exists_thresholdOf_le P
  obtain ⟨j, m, rfl⟩ := dataPair_eq hp
  refine ⟨j, fun hzero => ?_⟩
  have hbit := h j m
  rw [hzero, decide_eq_true hle, BitVec.ofNat_eq_ofNat, BitVec.getLsbD_zero] at hbit
  cases hbit

/-- A byte whose bits are all 1 is 0xFF. -/
theorem eq_0xFF_of_bits {x : Byte} (h : ∀ m : Fin 8, x.getLsbD (7 - m.val) = true) : x = 0xFF := by
  have ones : ∀ i < 8, (0xFF : Byte).getLsbD i = true := by decide
  refine BitVec.eq_of_getLsbD_eq fun i hi => ?_
  have hbit := h ⟨7 - i, by omega⟩
  rwa [Nat.sub_sub_self (Nat.le_of_lt_succ hi), ← ones i hi] at hbit

/-- When every counter reaches the mean every byte is 0xFF (R236). -/
theorem Engine.BytesOf.eq_0xFF (h : e.BytesOf P) (hall : ∀ p ∈ Finset.Icc 1 40, thresholdOf P ≤ P (2 * p + 1))
    (j : Fin 5) : e.raw[j] = 0xFF :=
  eq_0xFF_of_bits fun m => (h j m).trans (decide_eq_true (hall _ (dataPair_mem j m)))

/-- Bytes that are all 0xFF fail the checksum: four of them sum to 0xFC (R236, R237). -/
theorem ne_checksum_of_0xFF (hall : ∀ j : Fin 5, e.raw[j] = 0xFF) : e.raw[4] ≠ e.checksum := by
  have hbyte (j : Nat) (hj : j < 5) : e.raw[j] = 0xFF := hall ⟨j, hj⟩
  simp only [Engine.checksum, hbyte]
  decide

/-! ### The steps -/

/-- The sequencer of a quiet machine steps as the micro-operation that PHASE names. -/
theorem step_of_quiet_exec {i : Instr} (hq : s.quiet) (hd : decodePhase s.eng.phase = .ok i) (he : exec i s = .next t) :
    step s = .next t :=
  (stepRunsThePhase.1 s i hq hd).trans he

/-- `t` follows on `s` by THRESH and DECODE, with the threshold and the bytes of the counters. -/
structure Packed (s t : State) : Prop where
  run : Host.Core.run Sys2Proof.core 2 s = .next t
  quiet : t.quiet
  frame : t = { s with eng := { s.eng with threshold := t.eng.threshold, raw := t.eng.raw, phase := Phase.check } }
  threshold : t.eng.threshold.toNat = thresholdOf s.eng.slot
  bytes : t.eng.BytesOf s.eng.slot

/-- THRESH and DECODE (O30) on a quiet machine. -/
theorem exists_packed (hq : s.quiet) (hphase : s.eng.phase = Phase.thresh) : ∃ t, Packed s t := by
  obtain ⟨t, hdecode, hframe, hbits, -⟩ := decodePacksMostSignificantFirst
    { s with eng := { s.eng with threshold := s.eng.meanHigh, phase := Phase.decode } }
  have hq₁ := quiet_of_exec hq (exec_thresh s)
  have hstep₁ := step_of_quiet_exec hq (by rw [hphase]; rfl) (exec_thresh s)
  have hstep₂ := step_of_quiet_exec hq₁ rfl hdecode
  refine ⟨t, ?_, quiet_of_exec hq₁ hdecode, ?_, ?_, ?_⟩
  · rw [run_succ_of_step _ hstep₁, run_succ_of_step _ hstep₂]
    rfl
  · rw [hframe]
  · rw [hframe]
    exact toNat_meanHigh s.eng
  · simp only [toNat_meanHigh] at hbits
    exact hbits

/-- What THRESH and DECODE keep, and where they lead (R231, R234). -/
theorem Packed.kept (h : Packed s t) :
    (t.eng.resultsZero ↔ s.eng.resultsZero) ∧ t.eng.argType = s.eng.argType ∧ t.eng.phase = Phase.check ∧
      t.eng.pulse = s.eng.pulse ∧ t.banks = s.banks ∧ t.log = s.log := by
  rw [h.frame]
  exact ⟨Iff.rfl, rfl, rfl, rfl, rfl, rfl⟩

/-- Bytes that fail the checksum end the read in a third step (R238). -/
theorem Packed.run_mismatch (h : Packed s t) (hne : t.eng.raw[4] ≠ t.eng.checksum) :
    Host.Core.run Sys2Proof.core 3 s = .next (t.complete .checksumMismatch) := by
  obtain ⟨-, -, hphase, -⟩ := h.kept
  have hstep := step_of_quiet_exec h.quiet (by rw [hphase]; rfl) (exec_check_mismatch hne)
  exact (run_add 1 h.run).trans (run_succ_of_step 0 hstep)

/-- Bytes that pass the checksum are scaled in a fourth step (R238, R240). -/
theorem Packed.run_scale (h : Packed s t) (heq : t.eng.raw[4] = t.eng.checksum)
    (hscale : exec .scale (t.goto Phase.scale) = .next u) : Host.Core.run Sys2Proof.core 4 s = .next u := by
  obtain ⟨-, -, hphase, -⟩ := h.kept
  have hcheck := exec_check_match heq
  have hstep₃ := step_of_quiet_exec h.quiet (by rw [hphase]; rfl) hcheck
  have hstep₄ := step_of_quiet_exec (quiet_of_exec h.quiet hcheck) rfl hscale
  rw [run_add 2 h.run, run_succ_of_step _ hstep₃, run_succ_of_step _ hstep₄]
  rfl

/-! ### What the counters decode to -/

/-- Settles O37: the bytes of the counters and their checksum. -/
theorem allZeroFrameIsNeverDecoded : Obligations.AllZeroFrameIsNeverDecoded := by
  unfold Obligations.AllZeroFrameIsNeverDecoded
  intro s hq hphase
  obtain ⟨t, h⟩ := exists_packed hq hphase
  refine ⟨t, h.run, by rw [h.frame], h.bytes.exists_ne_zero, fun hequal => ?_⟩
  have hall : ∀ p ∈ Finset.Icc 1 40, thresholdOf s.eng.slot ≤ s.eng.slot (2 * p + 1) := fun p hp =>
    (thresholdOf_le fun p' hp' => (hequal p' hp').le).trans (hequal p hp).ge
  have hbytes := h.bytes.eq_0xFF hall
  exact ⟨hbytes, _, h.run_mismatch (ne_checksum_of_0xFF hbytes), rfl⟩

/-- In a two-level capture a pair reaches the mean when it is one of the high ones, or when the mean is the low level
itself (R248). -/
theorem thresholdOf_le_two_level_iff {S : Finset Nat} {z o p : Nat} (hS : S ⊆ Finset.Icc 1 40) (hzo : z < o)
    (h : ∀ p ∈ Finset.Icc 1 40, P (2 * p + 1) = if p ∈ S then o else z) (hp : p ∈ Finset.Icc 1 40) :
    thresholdOf P ≤ P (2 * p + 1) ↔ p ∈ S ∨ S.card * (o - z) < 40 := by
  rw [thresholdOf_two_level hS hzo h, h p hp]
  by_cases hpS : p ∈ S
  · have hcard : S.card ≤ 40 := by simpa using Finset.card_le_card hS
    have hmul := Nat.mul_le_mul_right (o - z) hcard
    simp only [hpS, if_true, true_or, iff_true]
    omega
  · simp only [hpS, if_false, false_or]
    omega

/-- Settles O38: the two-level mean, compared pair by pair. -/
theorem twoLevelCaptureDecodes : Obligations.TwoLevelCaptureDecodes := by
  unfold Obligations.TwoLevelCaptureDecodes
  intro s S z o hq hphase hS hzo hlevels
  obtain ⟨t, h⟩ := exists_packed hq hphase
  have hreach := fun p hp => thresholdOf_le_two_level_iff hS hzo hlevels (p := p) hp
  refine ⟨t, h.run, h.threshold.trans (thresholdOf_two_level hS hzo hlevels), fun p hp => ?_, fun hfew => ?_⟩
  · obtain ⟨j, m, rfl⟩ := dataPair_eq hp
    have hj : (8 * j.val + 1 + m.val - 1) / 8 = j.val := by omega
    have hm : (8 * j.val + 1 + m.val - 1) % 8 = m.val := by omega
    have hraw : t.eng.raw.toList.getD j.val 0 = t.eng.raw[j] := by simp
    rw [hj, hm, hraw, h.bytes j m, decide_eq_decide]
    exact hreach _ hp
  · have hbytes := h.bytes.eq_0xFF fun p hp => (hreach p hp).2 (.inr hfew)
    exact ⟨_, h.run_mismatch (ne_checksum_of_0xFF hbytes), rfl⟩

/-! ### `decodeAll`, case by case -/

/-- The checksum of the decoded bytes holds (R237, R247). -/
def ChecksumHolds (P : Nat → Nat) : Prop :=
  byteOf P 4 = (byteOf P 0 + byteOf P 1 + byteOf P 2 + byteOf P 3) % 256

theorem decodeAll_mismatch (h : ¬ChecksumHolds P) :
    decodeAll P type = ⟨.checksumMismatch, thresholdOf P, fun j => byteOf P j.val, 0, 0, false⟩ := if_pos h

theorem decodeAll_a (h : ChecksumHolds P) :
    decodeAll P .a = ⟨.success, thresholdOf P, fun j => byteOf P j.val, byteOf P 0, byteOf P 2, false⟩ :=
  if_neg (not_not.2 h)

theorem decodeAll_b (h : ChecksumHolds P) :
    decodeAll P .b = ⟨.success, thresholdOf P, fun j => byteOf P j.val, 256 * byteOf P 0 + byteOf P 1,
      256 * (byteOf P 2 % 128) + byteOf P 3, decide (byteOf P 2 / 128 = 1)⟩ :=
  if_neg (not_not.2 h)

/-- CHECK goes on exactly when the checksum of `decodeAll` holds (R238, R247). -/
theorem Engine.BytesOf.eq_checksum_iff (h : e.BytesOf P) : e.raw[4] = e.checksum ↔ ChecksumHolds P := by
  rw [Machine.eq_checksum_iff, ChecksumHolds]
  simp only [h.toNat_eq]

/-- Settles O39: the run of the phases, in the three cases of `decodeAll`. -/
theorem decodePipelineIsDecodeAll : Obligations.DecodePipelineIsDecodeAll := by
  unfold Obligations.DecodePipelineIsDecodeAll
  intro s hq hphase hzero
  obtain ⟨t, h⟩ := exists_packed hq hphase
  have hbyte := h.bytes.toNat_eq
  obtain ⟨hresults, htype, hcheck, hpulse, hbanks, hlog⟩ := h.kept
  by_cases hc : ChecksumHolds s.eng.slot
  · cases hvariant : s.eng.argType with
    | a =>
      obtain ⟨u, hscale, hu, hhum, hmag⟩ := scaleVariantA (t.goto Phase.scale) (htype.trans hvariant)
      refine ⟨4, le_rfl, u, h.run_scale (h.bytes.eq_checksum_iff.2 hc) hscale, ?_⟩
      rw [decodeAll_a hc, hhum, hmag, hu]
      exact ⟨rfl, h.threshold, fun j => hbyte j j.isLt, hbyte 0 _, hbyte 2 _, rfl, rfl, rfl, rfl, rfl, hpulse, hbanks, hlog⟩
    | b =>
      obtain ⟨u, hscale, hu, hhum, hmag, hneg⟩ := scaleVariantB (t.goto Phase.scale) (htype.trans hvariant)
      refine ⟨4, le_rfl, u, h.run_scale (h.bytes.eq_checksum_iff.2 hc) hscale, ?_⟩
      simp only [State.goto_eng, hbyte] at hhum hmag hneg
      have hsign : decide (128 ≤ byteOf s.eng.slot 2) = decide (byteOf s.eng.slot 2 / 128 = 1) := by
        have hlt := t.eng.raw[2].isLt
        rw [hbyte] at hlt
        rw [decide_eq_decide]
        omega
      rw [decodeAll_b hc, hhum, hmag, hneg, hsign, hu]
      exact ⟨rfl, h.threshold, fun j => hbyte j j.isLt, rfl, rfl, rfl, rfl, rfl, rfl, rfl, hpulse, hbanks, hlog⟩
  · obtain ⟨hhum, hmag, hneg⟩ := hresults.2 hzero
    refine ⟨3, by decide, _, h.run_mismatch (mt h.bytes.eq_checksum_iff.1 hc), ?_⟩
    rw [decodeAll_mismatch hc]
    exact ⟨rfl, h.threshold, fun j => hbyte j j.isLt, congrArg BitVec.toNat hhum, congrArg BitVec.toNat hmag, hneg, hcheck,
      rfl, rfl, rfl, hpulse, hbanks, hlog⟩

end Sys2Proof.Machine
end

section
/-! The completion procedure (spec/60_exceptions.md R275). -/

namespace Sys2Proof.Machine

open Sys2Proof

/-- Settles O42: `State.complete` is R275's list of writes, with `Phase.idle` for PHASE's code 0, and rebuilds nothing
outside the engine. -/
theorem completionWritesItsFieldsOnly : Obligations.CompletionWritesItsFieldsOnly := by
  unfold Obligations.CompletionWritesItsFieldsOnly
  intro code s
  rfl

end Sys2Proof.Machine
end
